-- ==== Sys2Proof/Word.lean ====
section
/-! DEFINITION. The word types (spec/00_scope.md R3): 32-bit words, 8-bit bytes, 16-bit parcels. -/

namespace Sys2Proof

/-- A 32-bit word: a register, an address, an operand (R3, R6). -/
abbrev Word := BitVec 32

/-- A byte of memory (R3). -/
abbrev Byte := BitVec 8

/-- A parcel, the 16-bit unit of instruction text (R3, R120). -/
abbrev Parcel := BitVec 16

end Sys2Proof
end

