-- ==== Sys2Proof/Config.lean ====
section
/-! DEFINITION. What an implementation fixes and what the spec leaves open. The constants have no body:
no proof can see their value, so a theorem about the model holds for every value of them. -/

namespace Sys2Proof.Config

/-- The free values: `freeWord n` is the word the n-th draw yields (DESIGN CHOICE, log 59: one supply,
indexed by the counter `State.free`, for every value and every choice the spec leaves open). -/
opaque freeWord : Nat → Word

/-- `P_MASK_VERSION` (spec/00_scope.md R4, spec/10_state.md R36): true for mask two. Log 6. -/
opaque maskTwo : Bool

/-- `P_DIV_ROUNDING` (spec/40_arithmetic.md R193): false rounds a signed quotient toward zero, true
toward minus infinity. Log 7. -/
opaque divFloors : Bool

end Sys2Proof.Config
end

