-- ==== Sys2Proof/Machine/Bits.lean ====
section
/-! DEFINITION. Bits of words, the fields of PSW and CONFIG (spec/10_state.md R25, R30), and the masks of the bits
that registers implement (R43). -/

namespace Sys2Proof.Machine

/-- The word with one bit put to a value. -/
def putBit (w : Word) (i : Nat) (b : Bool) : Word :=
  if b then w ||| (1#32 <<< i) else w &&& ~~~(1#32 <<< i)

/-- The bits of `mask` from `new`, the others from `old`. -/
def mergeBits (mask old new : Word) : Word := (old &&& ~~~mask) ||| (new &&& mask)

/-- A quad-aligned address: bits 3:0 do not exist (R43). -/
def quadAlign (w : Word) : Word := w &&& 0xFFFFFFF0#32

/-- A double-word-aligned address. -/
def pairAlign (w : Word) : Word := w &&& 0xFFFFFFF8#32

/-- A word-aligned address. -/
def wordAlign (w : Word) : Word := w &&& 0xFFFFFFFC#32

/-- A text address: bit 0 is dropped (R16). -/
def textAlign (w : Word) : Word := w &&& 0xFFFFFFFE#32

/-- Whether an address is a multiple of `n` (R65). -/
def aligned (a : Word) (n : Nat) : Bool := a.toNat % n == 0

/-- The bits PSW implements (R25, R26; D18, log 53). -/
def pswMask : Word := 0x0001FFF0#32

/-- The bits CONFIG implements (R30, R31; D18, log 53). -/
def configMask : Word := 0xFFFF0000#32

/-- The bits STB implements (R38, R43). -/
def stbMask : Word := 0xFFFFF800#32

/-- The four status flags F, C, V, E as bits of PSW (R19). -/
def flagMask : Word := 0x00000870#32

/-- F (PSW bit 4). -/
def flagF : Nat := 4
/-- C (PSW bit 5). -/
def flagC : Nat := 5
/-- V (PSW bit 6). -/
def flagV : Nat := 6
/-- E (PSW bit 11). -/
def flagE : Nat := 11

/-- Trace instruction (PSW bit 7). -/
def pswTI (p : Word) : Bool := p.getLsbD 7
/-- Trace basic block (PSW bit 8). -/
def pswTB (p : Word) : Bool := p.getLsbD 8
/-- Current stack pointer select (PSW bit 9): true when SP is the CSP. -/
def pswCSP (p : Word) : Bool := p.getLsbD 9
/-- Execution level (PSW bit 10): true at user level. -/
def pswX (p : Word) : Bool := p.getLsbD 10
/-- Interrupt priority level (PSW bits 14:12). -/
def pswIPL (p : Word) : BitVec 3 := p.extractLsb' 12 3
/-- User little-endian (PSW bit 15). -/
def pswUL (p : Word) : Bool := p.getLsbD 15
/-- Virtual addressing (PSW bit 16). -/
def pswVP (p : Word) : Bool := p.getLsbD 16

/-- The PSW bits every event sequence keeps (R26, 60_exceptions.md R360). -/
def eventPsw (p : Word) : Word := p &&& 0xFFFF0000#32

/-- Kernel little-endian (CONFIG bit 16). -/
def configKL (c : Word) : Bool := c.getLsbD 16
/-- PC extension (CONFIG bit 17). -/
def configPX (c : Word) : Bool := c.getLsbD 17
/-- Stack cache enable (CONFIG bit 18). -/
def configSC (c : Word) : Bool := c.getLsbD 18
/-- Instruction cache enable (CONFIG bit 19). -/
def configICE (c : Word) : Bool := c.getLsbD 19
/-- Prefetch buffer enable (CONFIG bit 20). -/
def configPBE (c : Word) : Bool := c.getLsbD 20
/-- Aggressive prefetching (CONFIG bit 21). -/
def configPM (c : Word) : Bool := c.getLsbD 21
/-- Timer1 counts completed instructions (CONFIG bit 22). -/
def configT1EV (c : Word) : Bool := c.getLsbD 22
/-- Timer1 counts at kernel level only (CONFIG bit 23). -/
def configT1K (c : Word) : Bool := c.getLsbD 23
/-- Timer1 interrupt enable (CONFIG bit 24). -/
def configT1IE (c : Word) : Bool := c.getLsbD 24
/-- Timer2 event select (CONFIG bits 29:25). -/
def configT2EV (c : Word) : BitVec 5 := c.extractLsb' 25 5
/-- Timer2 counts at kernel level only (CONFIG bit 30). -/
def configT2K (c : Word) : Bool := c.getLsbD 30
/-- Timer2 interrupt enable (CONFIG bit 31). -/
def configT2IE (c : Word) : Bool := c.getLsbD 31

/-- The stack cache's size in bytes, SCSIZE (00_scope.md R3). -/
def scSize : Nat := 256

/-- A word as a signed number (R6). -/
def signed (w : Word) : Int := w.toInt

/-- An exact integer as a word (R6). -/
def ofInt (i : Int) : Word := BitVec.ofInt 32 i

/-- Whether an exact result lies outside the signed 32-bit range (40_arithmetic.md R181). -/
def signedOverflow (i : Int) : Bool := decide (i < -2147483648 ∨ 2147483647 < i)

end Sys2Proof.Machine
end

