-- ==== Sys2Proof/Machine/Flags.lean ====
section
/-! DEFINITION. What the two-operand instructions compute: results and flags (spec/40_arithmetic.md R181 to R196,
spec/41_compare.md, spec/42_logical.md, spec/45_shift.md, spec/46_tagged.md; the flag table is spec/10_state.md R20). -/

namespace Sys2Proof.Machine

/-- What an instruction computes: the result to store (`none`: nothing is stored) and the PSW flags it writes: those of
`mask`, with the values in `flags`. -/
structure Calc where
  value : Option Word
  mask  : Word
  flags : Word
  deriving DecidableEq, Repr

/-- A flag's bit of PSW, when it holds. -/
def flagBit (i : Nat) (b : Bool) : Word := if b then 1#32 <<< i else 0#32

/-- The mask of C and V. -/
def maskCV : Word := flagBit flagC true ||| flagBit flagV true

/-- C and V as PSW bits. -/
def flagsCV (c v : Bool) : Word := flagBit flagC c ||| flagBit flagV v

/-- PSW after the flags of a computation are written; the other bits stay (R20, D7, log 46). -/
def Calc.psw (c : Calc) (p : Word) : Word := mergeBits c.mask p c.flags

/-- A result that writes no flag. -/
def noFlags (v : Word) : Calc := ⟨some v, 0#32, 0#32⟩

/-- Carry of `b + a` (R181). -/
def carryAdd (a b : Word) : Bool := decide (4294967295 < b.toNat + a.toNat)
/-- Borrow of `b - a` (R181). -/
def borrowSub (a b : Word) : Bool := decide (b.toNat < a.toNat)
/-- Unsigned overflow of `b * a` (R181). -/
def carryMul (a b : Word) : Bool := decide (4294967295 < b.toNat * a.toNat)
/-- Signed overflow of `b + a` (R181). -/
def overflowAdd (a b : Word) : Bool := signedOverflow (signed b + signed a)
/-- Signed overflow of `b - a` (R181). -/
def overflowSub (a b : Word) : Bool := signedOverflow (signed b - signed a)
/-- Signed overflow of `b * a` (R181, D8). -/
def overflowMul (a b : Word) : Bool := signedOverflow (signed b * signed a)

/-- ADD (R183). -/
def calcAdd (a b : Word) : Calc := ⟨some (b + a), maskCV, flagsCV (carryAdd a b) (overflowAdd a b)⟩
/-- SUB (R185). -/
def calcSub (a b : Word) : Calc := ⟨some (b - a), maskCV, flagsCV (borrowSub a b) (overflowSub a b)⟩
/-- MUL (R187): the low 32 bits of the product (D8, log 47). -/
def calcMul (a b : Word) : Calc := ⟨some (b * a), maskCV, flagsCV (carryMul a b) (overflowMul a b)⟩

/-- The one division whose quotient does not fit: 0x80000000 by 0xFFFFFFFF (R189). -/
def divOverflows (a b : Word) : Bool := b == 0x80000000#32 && a == 0xFFFFFFFF#32

/-- The signed quotient that DIV delivers (R189, R193): truncated, or with `Config.divFloors` floored (log 7). -/
def quotient (a b : Word) : Word :=
  if divOverflows a b then 0x80000000#32
  else ofInt (if Config.divFloors then (signed b).fdiv (signed a) else (signed b).tdiv (signed a))

/-- DIV (R189): V is the overflow case, C is not written. -/
def calcDiv (a b : Word) : Calc := ⟨some (quotient a b), flagBit flagV true, flagBit flagV (divOverflows a b)⟩
/-- REM (R191): defined from DIV's quotient; V is cleared. -/
def calcRem (a b : Word) : Calc := ⟨some (b - quotient a b * a), flagBit flagV true, 0#32⟩
/-- UDIV (R194): C is cleared. -/
def calcUdiv (a b : Word) : Calc := ⟨some (BitVec.ofNat 32 (b.toNat / a.toNat)), flagBit flagC true, 0#32⟩
/-- UREM (R195): C is cleared. -/
def calcUrem (a b : Word) : Calc := ⟨some (BitVec.ofNat 32 (b.toNat % a.toNat)), flagBit flagC true, 0#32⟩

/-- AND (42_logical.md R221). -/
def calcAnd (a b : Word) : Calc := noFlags (b &&& a)
/-- OR (R224). -/
def calcOr (a b : Word) : Calc := noFlags (b ||| a)
/-- XOR (R226). -/
def calcXor (a b : Word) : Calc := noFlags (b ^^^ a)

/-- The count of a shift: the low five bits of the source (45_shift.md R300). -/
def shiftCount (a : Word) : Nat := (a.extractLsb' 0 5).toNat

/-- SHL (R301). -/
def calcShl (a b : Word) : Calc := noFlags (b <<< shiftCount a)
/-- SHR (R303): the sign bit is copied. -/
def calcShr (a b : Word) : Calc := noFlags (b.sshiftRight (shiftCount a))
/-- USHR (R305). -/
def calcUshr (a b : Word) : Calc := noFlags (b >>> shiftCount a)

/-- A comparison's F (41_compare.md R210): nothing is stored. -/
def calcCompare (holds : Bool) : Calc := ⟨none, flagBit flagF true, flagBit flagF holds⟩
/-- CMPEQ (R211). -/
def calcCmpeq (a b : Word) : Calc := calcCompare (a == b)
/-- CMPGT (R212): signed, the first operand on the left. -/
def calcCmpgt (a b : Word) : Calc := calcCompare (decide (signed b < signed a))
/-- CMPHI (R213): unsigned, the first operand on the left. -/
def calcCmphi (a b : Word) : Calc := calcCompare (decide (b.toNat < a.toNat))

/-- Whether a tag is not zero (46_tagged.md R315). -/
def tagged (a b : Word) : Bool := a.extractLsb' 0 2 != 0#2 || b.extractLsb' 0 2 != 0#2

/-- TADD and TSUB (R316, R317) from the untagged result and its C and V: a nonzero tag sets F alone; else F is V, and
the result is stored only when F is 0. -/
def calcTagged (a b r : Word) (c v : Bool) : Calc :=
  if tagged a b then ⟨none, flagBit flagF true, flagBit flagF true⟩
  else ⟨if v then none else some r, flagBit flagF true ||| maskCV, flagBit flagF v ||| flagsCV c v⟩

/-- TADD (R316). -/
def calcTadd (a b : Word) : Calc := calcTagged a b (b + a) (carryAdd a b) (overflowAdd a b)
/-- TSUB (R317). -/
def calcTsub (a b : Word) : Calc := calcTagged a b (b - a) (borrowSub a b) (overflowSub a b)

/-- The operations of the two-operand instructions and their "3" forms. -/
inductive BinOp where
  | add | sub | mul | div | rem | udiv | urem | and | or | xor | shl | shr | ushr
  deriving DecidableEq, Repr

/-- What an operation computes of source `a` and destination `b`. -/
def BinOp.calc (op : BinOp) (a b : Word) : Calc :=
  match op with
  | .add => calcAdd a b
  | .sub => calcSub a b
  | .mul => calcMul a b
  | .div => calcDiv a b
  | .rem => calcRem a b
  | .udiv => calcUdiv a b
  | .urem => calcUrem a b
  | .and => calcAnd a b
  | .or => calcOr a b
  | .xor => calcXor a b
  | .shl => calcShl a b
  | .shr => calcShr a b
  | .ushr => calcUshr a b

/-- Whether a zero source raises ZeroDivide (40_arithmetic.md R196). -/
def BinOp.traps (op : BinOp) : Bool :=
  match op with
  | .div => true
  | .rem => true
  | .udiv => true
  | .urem => true
  | _ => false

/-- Whether it is a division, a remainder or a right shift (70_reset_and_hazards.md R443). -/
def BinOp.divides (op : BinOp) : Bool :=
  match op with
  | .shr => true
  | .ushr => true
  | op => op.traps

/-- Whether its rule writes the flags before the store (40_arithmetic.md R189, R191). -/
def BinOp.flagsFirst (op : BinOp) : Bool :=
  match op with
  | .div => true
  | .rem => true
  | _ => false

/-- Whether its truncated result can be seen untruncated (70_reset_and_hazards.md R443: ADD, SHL, MUL). -/
def BinOp.leaks (op : BinOp) : Bool :=
  match op with
  | .add => true
  | .shl => true
  | .mul => true
  | _ => false

/-- The interlocked operations. -/
inductive LockOp where
  | addi | andi | ori
  deriving DecidableEq, Repr

/-- What an interlocked operation stores of source `a` and old destination `b`; no flag is written (40_arithmetic.md
R186, 42_logical.md R223, R225). -/
def LockOp.result (op : LockOp) (a b : Word) : Word :=
  match op with
  | .addi => b + a
  | .andi => b &&& a
  | .ori => b ||| a

/-- The comparisons. -/
inductive CmpOp where
  | eq | gt | hi
  deriving DecidableEq, Repr

/-- What a comparison computes. -/
def CmpOp.calc (op : CmpOp) (a b : Word) : Calc :=
  match op with
  | .eq => calcCmpeq a b
  | .gt => calcCmpgt a b
  | .hi => calcCmphi a b

/-- The tagged operations. -/
inductive TagOp where
  | tadd | tsub
  deriving DecidableEq, Repr

/-- What a tagged operation computes. -/
def TagOp.calc (op : TagOp) (a b : Word) : Calc :=
  match op with
  | .tadd => calcTadd a b
  | .tsub => calcTsub a b

end Sys2Proof.Machine
end

