-- ==== Sys2Proof/Syntax.lean ====
section
/-! DEFINITION. The instructions: one constructor for each row of spec/opcode_table.json, in the table's
order, with the row's fields as they stand in the encoding (spec/30_encoding.md R120 to R128, R150 to R155).

The suffixes are the spec's: two letters for a one-parcel dyadic form (R150: C immediate, W word-aligned
immediate, S stack offset, I stack offset indirect), `G16` and `G32` for the three-parcel and five-parcel
general forms, `W32`, `F32`, `A32`, `S32` for the operand classes word32, flow32, abs32, stk32 of the
three-parcel monadics (R135, R154). Whether an addressing mode is legal is no matter of syntax: it is a check
the machine makes after a row is selected (R161). -/

namespace Sys2Proof

/-- An instruction. The CPU row (parcel 0x2C00) has two constructors, because the instruction that follows
the prefix belongs to it (R128): `cpuWide` before a three- or five-parcel instruction, `cpuShort` before a
one-parcel instruction. -/
inductive Instr where
  /-- KCALL imm10, match 0x0000 (R277). `f`: the ten-bit field. -/
  | kcallImm10 (f : BitVec 10)
  /-- CALL pcrel10, match 0x0400 (R261). `f`: the ten-bit field. -/
  | callPc10 (f : BitVec 10)
  /-- ENTER stk8, match 0x0800 (R266). `f`: the eight-bit field. -/
  | enterStk8 (f : BitVec 8)
  /-- CATCH stk8, match 0x0900 (R263). `f`: the eight-bit field. -/
  | catchStk8 (f : BitVec 8)
  /-- RETURN stk8, match 0x0A00 (R276). `f`: the eight-bit field. -/
  | returnStk8 (f : BitVec 8)
  /-- POPN stk8, match 0x0B00 (R274). `f`: the eight-bit field. -/
  | popnStk8 (f : BitVec 8)
  /-- JMP pcrel10, match 0x0C00 (R270). `f`: the ten-bit field. -/
  | jmpPc10 (f : BitVec 10)
  /-- JMPFN pcrel10, match 0x1000 (R271). `f`: the ten-bit field. -/
  | jmpfnPc10 (f : BitVec 10)
  /-- JMPFY pcrel10, match 0x1400 (R272). `f`: the ten-bit field. -/
  | jmpfyPc10 (f : BitVec 10)
  /-- JMPTN pcrel10, match 0x1800 (R273). `f`: the ten-bit field. -/
  | jmptnPc10 (f : BitVec 10)
  /-- JMPTY pcrel10, match 0x1C00 (R275). `f`: the ten-bit field. -/
  | jmptyPc10 (f : BitVec 10)
  /-- unimplemented: one-parcel opcode 0x08, match 0x2000 (R340). `x`: the ten bits not decoded. -/
  | unimpOne08 (x : BitVec 10)
  /-- unimplemented: one-parcel opcode 0x09, match 0x2400 (R340). `x`: the ten bits not decoded. -/
  | unimpOne09 (x : BitVec 10)
  /-- MOV.WS wai5,stk5, match 0x2800 (R240). `s`, `d`: the source and destination fields. -/
  | movWS (s : BitVec 5) (d : BitVec 5)
  /-- CPU, parcel 0x2C00, and the three- or five-parcel instruction it modifies (R326, R128). -/
  | cpuWide (inner : Instr)
  /-- CPU, parcel 0x2C00, before a parcel of a one-parcel instruction, `next` (R128). -/
  | cpuShort (next : BitVec 16)
  /-- KRET, match 0x2C01 (R278). -/
  | kret
  /-- NOP, match 0x2C02 (R327). -/
  | nop
  /-- FLUSHI, match 0x2C03 (R335). -/
  | flushi
  /-- FLUSHP, match 0x2C04 (R336). -/
  | flushp
  /-- CRET, match 0x2C05 (R264). -/
  | cret
  /-- FLUSHD, match 0x2C06 (R333). -/
  | flushd
  /-- TESTV, match 0x2C08 (R329). -/
  | testv
  /-- TESTC, match 0x2C09 (R328). -/
  | testc
  /-- CLRE, match 0x2C0A (R330). -/
  | clre
  /-- unimplemented: niladic subcode 0007, match 0x2C07 (R340). -/
  | unimpNil007
  /-- unimplemented: niladic subcode 000B, match 0x2C0B (R340). -/
  | unimpNil00B
  /-- unimplemented: niladic subcode 000C..000F, match 0x2C0C (R340). `x`: the low bits of the subcode. -/
  | unimpNil00C (x : BitVec 2)
  /-- unimplemented: niladic subcode 0010..001F, match 0x2C10 (R340). `x`: the low bits of the subcode. -/
  | unimpNil010 (x : BitVec 4)
  /-- unimplemented: niladic subcode 0020..003F, match 0x2C20 (R340). `x`: the low bits of the subcode. -/
  | unimpNil020 (x : BitVec 5)
  /-- unimplemented: niladic subcode 0040..007F, match 0x2C40 (R340). `x`: the low bits of the subcode. -/
  | unimpNil040 (x : BitVec 6)
  /-- unimplemented: niladic subcode 0080..00FF, match 0x2C80 (R340). `x`: the low bits of the subcode. -/
  | unimpNil080 (x : BitVec 7)
  /-- unimplemented: niladic subcode 0100..01FF, match 0x2D00 (R340). `x`: the low bits of the subcode. -/
  | unimpNil100 (x : BitVec 8)
  /-- trapped niladic: niladic subcode 200..3FF, match 0x2E00 (R341). `t`: the trap number. -/
  | trappedNiladic (t : BitVec 9)
  /-- unimplemented: one-parcel opcode 0x0C, match 0x3000 (R340). `x`: the ten bits not decoded. -/
  | unimpOne0C (x : BitVec 10)
  /-- ADD3.WS wai5,stk5, match 0x3400 (R184). `s`, `d`: the source and destination fields. -/
  | add3WS (s : BitVec 5) (d : BitVec 5)
  /-- AND3.CS imm5,stk5, match 0x3800 (R222). `s`, `d`: the source and destination fields. -/
  | and3CS (s : BitVec 5) (d : BitVec 5)
  /-- AND.SS stk5,stk5, match 0x3C00 (R221). `s`, `d`: the source and destination fields. -/
  | andSS (s : BitVec 5) (d : BitVec 5)
  /-- CMPEQ.CS imm5,stk5, match 0x4000 (R211). `s`, `d`: the source and destination fields. -/
  | cmpeqCS (s : BitVec 5) (d : BitVec 5)
  /-- CMPGT.SS stk5,stk5, match 0x4400 (R212). `s`, `d`: the source and destination fields. -/
  | cmpgtSS (s : BitVec 5) (d : BitVec 5)
  /-- CMPGT.CS imm5,stk5, match 0x4800 (R212). `s`, `d`: the source and destination fields. -/
  | cmpgtCS (s : BitVec 5) (d : BitVec 5)
  /-- CMPEQ.SS stk5,stk5, match 0x4C00 (R211). `s`, `d`: the source and destination fields. -/
  | cmpeqSS (s : BitVec 5) (d : BitVec 5)
  /-- ADD.CS imm5,stk5, match 0x5000 (R183). `s`, `d`: the source and destination fields. -/
  | addCS (s : BitVec 5) (d : BitVec 5)
  /-- ADD3.CS imm5,stk5, match 0x5400 (R184). `s`, `d`: the source and destination fields. -/
  | add3CS (s : BitVec 5) (d : BitVec 5)
  /-- ADD.SS stk5,stk5, match 0x5800 (R183). `s`, `d`: the source and destination fields. -/
  | addSS (s : BitVec 5) (d : BitVec 5)
  /-- ADD3.SS stk5,stk5, match 0x5C00 (R184). `s`, `d`: the source and destination fields. -/
  | add3SS (s : BitVec 5) (d : BitVec 5)
  /-- MOV.SS stk5,stk5, match 0x6000 (R240). `s`, `d`: the source and destination fields. -/
  | movSS (s : BitVec 5) (d : BitVec 5)
  /-- MOV.IS istk5,stk5, match 0x6400 (R240). `s`, `d`: the source and destination fields. -/
  | movIS (s : BitVec 5) (d : BitVec 5)
  /-- MOV.SI stk5,istk5, match 0x6800 (R240). `s`, `d`: the source and destination fields. -/
  | movSI (s : BitVec 5) (d : BitVec 5)
  /-- MOV.II istk5,istk5, match 0x6C00 (R240). `s`, `d`: the source and destination fields. -/
  | movII (s : BitVec 5) (d : BitVec 5)
  /-- MOV.CS imm5,stk5, match 0x7000 (R240). `s`, `d`: the source and destination fields. -/
  | movCS (s : BitVec 5) (d : BitVec 5)
  /-- MOVA.SS stk5,stk5, match 0x7400 (R243). `s`, `d`: the source and destination fields. -/
  | movaSS (s : BitVec 5) (d : BitVec 5)
  /-- SHL3.CS uimm5,stk5, match 0x7800 (R302). `s`, `d`: the source and destination fields. -/
  | shl3CS (s : BitVec 5) (d : BitVec 5)
  /-- SHR3.CS uimm5,stk5, match 0x7C00 (R304). `s`, `d`: the source and destination fields. -/
  | shr3CS (s : BitVec 5) (d : BitVec 5)
  /-- KCALL word32, match 0x8000 (R277). `m`: the mode, `o`: the operand field. -/
  | kcallW32 (m : BitVec 4) (o : BitVec 32)
  /-- CALL flow32, match 0x8001 (R261). `m`: the mode, `o`: the operand field. -/
  | callF32 (m : BitVec 4) (o : BitVec 32)
  /-- RETURN stk32, match 0x8002 (R276). `m`: the mode, `o`: the operand field. -/
  | returnS32 (m : BitVec 4) (o : BitVec 32)
  /-- JMP flow32, match 0x8003 (R270). `m`: the mode, `o`: the operand field. -/
  | jmpF32 (m : BitVec 4) (o : BitVec 32)
  /-- JMPFN abs32, match 0x8004 (R271). `m`: the mode, `o`: the operand field. -/
  | jmpfnA32 (m : BitVec 4) (o : BitVec 32)
  /-- JMPFY abs32, match 0x8005 (R272). `m`: the mode, `o`: the operand field. -/
  | jmpfyA32 (m : BitVec 4) (o : BitVec 32)
  /-- JMPTN abs32, match 0x8006 (R273). `m`: the mode, `o`: the operand field. -/
  | jmptnA32 (m : BitVec 4) (o : BitVec 32)
  /-- JMPTY abs32, match 0x8007 (R275). `m`: the mode, `o`: the operand field. -/
  | jmptyA32 (m : BitVec 4) (o : BitVec 32)
  /-- CATCH word32, match 0x8008 (R263). `m`: the mode, `o`: the operand field. -/
  | catchW32 (m : BitVec 4) (o : BitVec 32)
  /-- ENTER word32, match 0x8009 (R266). `m`: the mode, `o`: the operand field. -/
  | enterW32 (m : BitVec 4) (o : BitVec 32)
  /-- LDRAA flow32, match 0x800A (R245). `m`: the mode, `o`: the operand field. -/
  | ldraaF32 (m : BitVec 4) (o : BitVec 32)
  /-- FLUSHPTE word32, match 0x800B (R338). `m`: the mode, `o`: the operand field. -/
  | flushpteW32 (m : BitVec 4) (o : BitVec 32)
  /-- FLUSHPBE word32, match 0x800C (R337). `m`: the mode, `o`: the operand field. -/
  | flushpbeW32 (m : BitVec 4) (o : BitVec 32)
  /-- FLUSHDCE word32, match 0x800D (R334). `m`: the mode, `o`: the operand field. -/
  | flushdceW32 (m : BitVec 4) (o : BitVec 32)
  /-- unimplemented: monadic subcode 0xE, match 0x800E (R340). `m`: the mode, `o`: the operand field. -/
  | unimpMonE (m : BitVec 4) (o : BitVec 32)
  /-- POPN stk32, match 0x800F (R274). `m`: the mode, `o`: the operand field. -/
  | popnS32 (m : BitVec 4) (o : BitVec 32)
  /-- unimplemented: five-parcel opcode 0x00, match 0xC000 (R340). `sm`, `dm`: the modes, `src`, `dst`: the fields. -/
  | unimpFive00 (sm : BitVec 4) (dm : BitVec 4) (src : BitVec 32) (dst : BitVec 32)
  /-- ORI src,dst (3-parcel), match 0x8100 (R225). `sm`, `dm`: the modes, `src`, `dst`: the fields. -/
  | oriG16 (sm : BitVec 4) (dm : BitVec 4) (src : BitVec 16) (dst : BitVec 16)
  /-- ORI src,dst (5-parcel), match 0xC100 (R225). `sm`, `dm`: the modes, `src`, `dst`: the fields. -/
  | oriG32 (sm : BitVec 4) (dm : BitVec 4) (src : BitVec 32) (dst : BitVec 32)
  /-- ANDI src,dst (3-parcel), match 0x8200 (R223). `sm`, `dm`: the modes, `src`, `dst`: the fields. -/
  | andiG16 (sm : BitVec 4) (dm : BitVec 4) (src : BitVec 16) (dst : BitVec 16)
  /-- ANDI src,dst (5-parcel), match 0xC200 (R223). `sm`, `dm`: the modes, `src`, `dst`: the fields. -/
  | andiG32 (sm : BitVec 4) (dm : BitVec 4) (src : BitVec 32) (dst : BitVec 32)
  /-- ADDI src,dst (3-parcel), match 0x8300 (R186). `sm`, `dm`: the modes, `src`, `dst`: the fields. -/
  | addiG16 (sm : BitVec 4) (dm : BitVec 4) (src : BitVec 16) (dst : BitVec 16)
  /-- ADDI src,dst (5-parcel), match 0xC300 (R186). `sm`, `dm`: the modes, `src`, `dst`: the fields. -/
  | addiG32 (sm : BitVec 4) (dm : BitVec 4) (src : BitVec 32) (dst : BitVec 32)
  /-- MOVA src,dst (3-parcel), match 0x8400 (R243). `sm`, `dm`: the modes, `src`, `dst`: the fields. -/
  | movaG16 (sm : BitVec 4) (dm : BitVec 4) (src : BitVec 16) (dst : BitVec 16)
  /-- MOVA src,dst (5-parcel), match 0xC400 (R243). `sm`, `dm`: the modes, `src`, `dst`: the fields. -/
  | movaG32 (sm : BitVec 4) (dm : BitVec 4) (src : BitVec 32) (dst : BitVec 32)
  /-- UREM src,dst (3-parcel), match 0x8500 (R195). `sm`, `dm`: the modes, `src`, `dst`: the fields. -/
  | uremG16 (sm : BitVec 4) (dm : BitVec 4) (src : BitVec 16) (dst : BitVec 16)
  /-- UREM src,dst (5-parcel), match 0xC500 (R195). `sm`, `dm`: the modes, `src`, `dst`: the fields. -/
  | uremG32 (sm : BitVec 4) (dm : BitVec 4) (src : BitVec 32) (dst : BitVec 32)
  /-- MOV src,dst (3-parcel), match 0x8600 (R240). `sm`, `dm`: the modes, `src`, `dst`: the fields. -/
  | movG16 (sm : BitVec 4) (dm : BitVec 4) (src : BitVec 16) (dst : BitVec 16)
  /-- MOV src,dst (5-parcel), match 0xC600 (R240). `sm`, `dm`: the modes, `src`, `dst`: the fields. -/
  | movG32 (sm : BitVec 4) (dm : BitVec 4) (src : BitVec 32) (dst : BitVec 32)
  /-- DQM src,dst (3-parcel), match 0x8700 (R246). `sm`, `dm`: the modes, `src`, `dst`: the fields. -/
  | dqmG16 (sm : BitVec 4) (dm : BitVec 4) (src : BitVec 16) (dst : BitVec 16)
  /-- DQM src,dst (5-parcel), match 0xC700 (R246). `sm`, `dm`: the modes, `src`, `dst`: the fields. -/
  | dqmG32 (sm : BitVec 4) (dm : BitVec 4) (src : BitVec 32) (dst : BitVec 32)
  /-- unimplemented: 3-parcel opcode 0x08, match 0x8800 (R340). `sm`, `dm`: the modes, `src`, `dst`: the fields. -/
  | unimpThree08 (sm : BitVec 4) (dm : BitVec 4) (src : BitVec 16) (dst : BitVec 16)
  /-- unimplemented: 5-parcel opcode 0x08, match 0xC800 (R340). `sm`, `dm`: the modes, `src`, `dst`: the fields. -/
  | unimpFive08 (sm : BitVec 4) (dm : BitVec 4) (src : BitVec 32) (dst : BitVec 32)
  /-- unimplemented: 3-parcel opcode 0x09, match 0x8900 (R340). `sm`, `dm`: the modes, `src`, `dst`: the fields. -/
  | unimpThree09 (sm : BitVec 4) (dm : BitVec 4) (src : BitVec 16) (dst : BitVec 16)
  /-- unimplemented: 5-parcel opcode 0x09, match 0xC900 (R340). `sm`, `dm`: the modes, `src`, `dst`: the fields. -/
  | unimpFive09 (sm : BitVec 4) (dm : BitVec 4) (src : BitVec 32) (dst : BitVec 32)
  /-- unimplemented: 3-parcel opcode 0x0A, match 0x8A00 (R340). `sm`, `dm`: the modes, `src`, `dst`: the fields. -/
  | unimpThree0A (sm : BitVec 4) (dm : BitVec 4) (src : BitVec 16) (dst : BitVec 16)
  /-- unimplemented: 5-parcel opcode 0x0A, match 0xCA00 (R340). `sm`, `dm`: the modes, `src`, `dst`: the fields. -/
  | unimpFive0A (sm : BitVec 4) (dm : BitVec 4) (src : BitVec 32) (dst : BitVec 32)
  /-- unimplemented: 3-parcel opcode 0x0B, match 0x8B00 (R340). `sm`, `dm`: the modes, `src`, `dst`: the fields. -/
  | unimpThree0B (sm : BitVec 4) (dm : BitVec 4) (src : BitVec 16) (dst : BitVec 16)
  /-- unimplemented: 5-parcel opcode 0x0B, match 0xCB00 (R340). `sm`, `dm`: the modes, `src`, `dst`: the fields. -/
  | unimpFive0B (sm : BitVec 4) (dm : BitVec 4) (src : BitVec 32) (dst : BitVec 32)
  /-- TADD src,dst (3-parcel), match 0x8C00 (R316). `sm`, `dm`: the modes, `src`, `dst`: the fields. -/
  | taddG16 (sm : BitVec 4) (dm : BitVec 4) (src : BitVec 16) (dst : BitVec 16)
  /-- TADD src,dst (5-parcel), match 0xCC00 (R316). `sm`, `dm`: the modes, `src`, `dst`: the fields. -/
  | taddG32 (sm : BitVec 4) (dm : BitVec 4) (src : BitVec 32) (dst : BitVec 32)
  /-- TSUB src,dst (3-parcel), match 0x8D00 (R317). `sm`, `dm`: the modes, `src`, `dst`: the fields. -/
  | tsubG16 (sm : BitVec 4) (dm : BitVec 4) (src : BitVec 16) (dst : BitVec 16)
  /-- TSUB src,dst (5-parcel), match 0xCD00 (R317). `sm`, `dm`: the modes, `src`, `dst`: the fields. -/
  | tsubG32 (sm : BitVec 4) (dm : BitVec 4) (src : BitVec 32) (dst : BitVec 32)
  /-- unimplemented: 3-parcel opcode 0x0E, match 0x8E00 (R340). `sm`, `dm`: the modes, `src`, `dst`: the fields. -/
  | unimpThree0E (sm : BitVec 4) (dm : BitVec 4) (src : BitVec 16) (dst : BitVec 16)
  /-- unimplemented: 5-parcel opcode 0x0E, match 0xCE00 (R340). `sm`, `dm`: the modes, `src`, `dst`: the fields. -/
  | unimpFive0E (sm : BitVec 4) (dm : BitVec 4) (src : BitVec 32) (dst : BitVec 32)
  /-- unimplemented: 3-parcel opcode 0x0F, match 0x8F00 (R340). `sm`, `dm`: the modes, `src`, `dst`: the fields. -/
  | unimpThree0F (sm : BitVec 4) (dm : BitVec 4) (src : BitVec 16) (dst : BitVec 16)
  /-- unimplemented: 5-parcel opcode 0x0F, match 0xCF00 (R340). `sm`, `dm`: the modes, `src`, `dst`: the fields. -/
  | unimpFive0F (sm : BitVec 4) (dm : BitVec 4) (src : BitVec 32) (dst : BitVec 32)
  /-- unimplemented: 3-parcel opcode 0x10, match 0x9000 (R340). `sm`, `dm`: the modes, `src`, `dst`: the fields. -/
  | unimpThree10 (sm : BitVec 4) (dm : BitVec 4) (src : BitVec 16) (dst : BitVec 16)
  /-- unimplemented: 5-parcel opcode 0x10, match 0xD000 (R340). `sm`, `dm`: the modes, `src`, `dst`: the fields. -/
  | unimpFive10 (sm : BitVec 4) (dm : BitVec 4) (src : BitVec 32) (dst : BitVec 32)
  /-- unimplemented: 3-parcel opcode 0x11, match 0x9100 (R340). `sm`, `dm`: the modes, `src`, `dst`: the fields. -/
  | unimpThree11 (sm : BitVec 4) (dm : BitVec 4) (src : BitVec 16) (dst : BitVec 16)
  /-- unimplemented: 5-parcel opcode 0x11, match 0xD100 (R340). `sm`, `dm`: the modes, `src`, `dst`: the fields. -/
  | unimpFive11 (sm : BitVec 4) (dm : BitVec 4) (src : BitVec 32) (dst : BitVec 32)
  /-- unimplemented: 3-parcel opcode 0x12, match 0x9200 (R340). `sm`, `dm`: the modes, `src`, `dst`: the fields. -/
  | unimpThree12 (sm : BitVec 4) (dm : BitVec 4) (src : BitVec 16) (dst : BitVec 16)
  /-- unimplemented: 5-parcel opcode 0x12, match 0xD200 (R340). `sm`, `dm`: the modes, `src`, `dst`: the fields. -/
  | unimpFive12 (sm : BitVec 4) (dm : BitVec 4) (src : BitVec 32) (dst : BitVec 32)
  /-- unimplemented: 3-parcel opcode 0x13, match 0x9300 (R340). `sm`, `dm`: the modes, `src`, `dst`: the fields. -/
  | unimpThree13 (sm : BitVec 4) (dm : BitVec 4) (src : BitVec 16) (dst : BitVec 16)
  /-- unimplemented: 5-parcel opcode 0x13, match 0xD300 (R340). `sm`, `dm`: the modes, `src`, `dst`: the fields. -/
  | unimpFive13 (sm : BitVec 4) (dm : BitVec 4) (src : BitVec 32) (dst : BitVec 32)
  /-- unimplemented: 3-parcel opcode 0x14, match 0x9400 (R340). `sm`, `dm`: the modes, `src`, `dst`: the fields. -/
  | unimpThree14 (sm : BitVec 4) (dm : BitVec 4) (src : BitVec 16) (dst : BitVec 16)
  /-- unimplemented: 5-parcel opcode 0x14, match 0xD400 (R340). `sm`, `dm`: the modes, `src`, `dst`: the fields. -/
  | unimpFive14 (sm : BitVec 4) (dm : BitVec 4) (src : BitVec 32) (dst : BitVec 32)
  /-- unimplemented: 3-parcel opcode 0x15, match 0x9500 (R340). `sm`, `dm`: the modes, `src`, `dst`: the fields. -/
  | unimpThree15 (sm : BitVec 4) (dm : BitVec 4) (src : BitVec 16) (dst : BitVec 16)
  /-- unimplemented: 5-parcel opcode 0x15, match 0xD500 (R340). `sm`, `dm`: the modes, `src`, `dst`: the fields. -/
  | unimpFive15 (sm : BitVec 4) (dm : BitVec 4) (src : BitVec 32) (dst : BitVec 32)
  /-- unimplemented: 3-parcel opcode 0x16, match 0x9600 (R340). `sm`, `dm`: the modes, `src`, `dst`: the fields. -/
  | unimpThree16 (sm : BitVec 4) (dm : BitVec 4) (src : BitVec 16) (dst : BitVec 16)
  /-- unimplemented: 5-parcel opcode 0x16, match 0xD600 (R340). `sm`, `dm`: the modes, `src`, `dst`: the fields. -/
  | unimpFive16 (sm : BitVec 4) (dm : BitVec 4) (src : BitVec 32) (dst : BitVec 32)
  /-- unimplemented: 3-parcel opcode 0x17, match 0x9700 (R340). `sm`, `dm`: the modes, `src`, `dst`: the fields. -/
  | unimpThree17 (sm : BitVec 4) (dm : BitVec 4) (src : BitVec 16) (dst : BitVec 16)
  /-- unimplemented: 5-parcel opcode 0x17, match 0xD700 (R340). `sm`, `dm`: the modes, `src`, `dst`: the fields. -/
  | unimpFive17 (sm : BitVec 4) (dm : BitVec 4) (src : BitVec 32) (dst : BitVec 32)
  /-- unimplemented: 3-parcel opcode 0x18, match 0x9800 (R340). `sm`, `dm`: the modes, `src`, `dst`: the fields. -/
  | unimpThree18 (sm : BitVec 4) (dm : BitVec 4) (src : BitVec 16) (dst : BitVec 16)
  /-- unimplemented: 5-parcel opcode 0x18, match 0xD800 (R340). `sm`, `dm`: the modes, `src`, `dst`: the fields. -/
  | unimpFive18 (sm : BitVec 4) (dm : BitVec 4) (src : BitVec 32) (dst : BitVec 32)
  /-- unimplemented: 3-parcel opcode 0x19, match 0x9900 (R340). `sm`, `dm`: the modes, `src`, `dst`: the fields. -/
  | unimpThree19 (sm : BitVec 4) (dm : BitVec 4) (src : BitVec 16) (dst : BitVec 16)
  /-- unimplemented: 5-parcel opcode 0x19, match 0xD900 (R340). `sm`, `dm`: the modes, `src`, `dst`: the fields. -/
  | unimpFive19 (sm : BitVec 4) (dm : BitVec 4) (src : BitVec 32) (dst : BitVec 32)
  /-- unimplemented: 3-parcel opcode 0x1A, match 0x9A00 (R340). `sm`, `dm`: the modes, `src`, `dst`: the fields. -/
  | unimpThree1A (sm : BitVec 4) (dm : BitVec 4) (src : BitVec 16) (dst : BitVec 16)
  /-- unimplemented: 5-parcel opcode 0x1A, match 0xDA00 (R340). `sm`, `dm`: the modes, `src`, `dst`: the fields. -/
  | unimpFive1A (sm : BitVec 4) (dm : BitVec 4) (src : BitVec 32) (dst : BitVec 32)
  /-- unimplemented: 3-parcel opcode 0x1B, match 0x9B00 (R340). `sm`, `dm`: the modes, `src`, `dst`: the fields. -/
  | unimpThree1B (sm : BitVec 4) (dm : BitVec 4) (src : BitVec 16) (dst : BitVec 16)
  /-- unimplemented: 5-parcel opcode 0x1B, match 0xDB00 (R340). `sm`, `dm`: the modes, `src`, `dst`: the fields. -/
  | unimpFive1B (sm : BitVec 4) (dm : BitVec 4) (src : BitVec 32) (dst : BitVec 32)
  /-- unimplemented: 3-parcel opcode 0x1C, match 0x9C00 (R340). `sm`, `dm`: the modes, `src`, `dst`: the fields. -/
  | unimpThree1C (sm : BitVec 4) (dm : BitVec 4) (src : BitVec 16) (dst : BitVec 16)
  /-- unimplemented: 5-parcel opcode 0x1C, match 0xDC00 (R340). `sm`, `dm`: the modes, `src`, `dst`: the fields. -/
  | unimpFive1C (sm : BitVec 4) (dm : BitVec 4) (src : BitVec 32) (dst : BitVec 32)
  /-- CMPGT src,dst (3-parcel), match 0x9D00 (R212). `sm`, `dm`: the modes, `src`, `dst`: the fields. -/
  | cmpgtG16 (sm : BitVec 4) (dm : BitVec 4) (src : BitVec 16) (dst : BitVec 16)
  /-- CMPGT src,dst (5-parcel), match 0xDD00 (R212). `sm`, `dm`: the modes, `src`, `dst`: the fields. -/
  | cmpgtG32 (sm : BitVec 4) (dm : BitVec 4) (src : BitVec 32) (dst : BitVec 32)
  /-- CMPHI src,dst (3-parcel), match 0x9E00 (R213). `sm`, `dm`: the modes, `src`, `dst`: the fields. -/
  | cmphiG16 (sm : BitVec 4) (dm : BitVec 4) (src : BitVec 16) (dst : BitVec 16)
  /-- CMPHI src,dst (5-parcel), match 0xDE00 (R213). `sm`, `dm`: the modes, `src`, `dst`: the fields. -/
  | cmphiG32 (sm : BitVec 4) (dm : BitVec 4) (src : BitVec 32) (dst : BitVec 32)
  /-- CMPEQ src,dst (3-parcel), match 0x9F00 (R211). `sm`, `dm`: the modes, `src`, `dst`: the fields. -/
  | cmpeqG16 (sm : BitVec 4) (dm : BitVec 4) (src : BitVec 16) (dst : BitVec 16)
  /-- CMPEQ src,dst (5-parcel), match 0xDF00 (R211). `sm`, `dm`: the modes, `src`, `dst`: the fields. -/
  | cmpeqG32 (sm : BitVec 4) (dm : BitVec 4) (src : BitVec 32) (dst : BitVec 32)
  /-- SUB src,dst (3-parcel), match 0xA000 (R185). `sm`, `dm`: the modes, `src`, `dst`: the fields. -/
  | subG16 (sm : BitVec 4) (dm : BitVec 4) (src : BitVec 16) (dst : BitVec 16)
  /-- SUB src,dst (5-parcel), match 0xE000 (R185). `sm`, `dm`: the modes, `src`, `dst`: the fields. -/
  | subG32 (sm : BitVec 4) (dm : BitVec 4) (src : BitVec 32) (dst : BitVec 32)
  /-- OR src,dst (3-parcel), match 0xA100 (R224). `sm`, `dm`: the modes, `src`, `dst`: the fields. -/
  | orG16 (sm : BitVec 4) (dm : BitVec 4) (src : BitVec 16) (dst : BitVec 16)
  /-- OR src,dst (5-parcel), match 0xE100 (R224). `sm`, `dm`: the modes, `src`, `dst`: the fields. -/
  | orG32 (sm : BitVec 4) (dm : BitVec 4) (src : BitVec 32) (dst : BitVec 32)
  /-- AND src,dst (3-parcel), match 0xA200 (R221). `sm`, `dm`: the modes, `src`, `dst`: the fields. -/
  | andG16 (sm : BitVec 4) (dm : BitVec 4) (src : BitVec 16) (dst : BitVec 16)
  /-- AND src,dst (5-parcel), match 0xE200 (R221). `sm`, `dm`: the modes, `src`, `dst`: the fields. -/
  | andG32 (sm : BitVec 4) (dm : BitVec 4) (src : BitVec 32) (dst : BitVec 32)
  /-- ADD src,dst (3-parcel), match 0xA300 (R183). `sm`, `dm`: the modes, `src`, `dst`: the fields. -/
  | addG16 (sm : BitVec 4) (dm : BitVec 4) (src : BitVec 16) (dst : BitVec 16)
  /-- ADD src,dst (5-parcel), match 0xE300 (R183). `sm`, `dm`: the modes, `src`, `dst`: the fields. -/
  | addG32 (sm : BitVec 4) (dm : BitVec 4) (src : BitVec 32) (dst : BitVec 32)
  /-- XOR src,dst (3-parcel), match 0xA400 (R226). `sm`, `dm`: the modes, `src`, `dst`: the fields. -/
  | xorG16 (sm : BitVec 4) (dm : BitVec 4) (src : BitVec 16) (dst : BitVec 16)
  /-- XOR src,dst (5-parcel), match 0xE400 (R226). `sm`, `dm`: the modes, `src`, `dst`: the fields. -/
  | xorG32 (sm : BitVec 4) (dm : BitVec 4) (src : BitVec 32) (dst : BitVec 32)
  /-- REM src,dst (3-parcel), match 0xA500 (R191). `sm`, `dm`: the modes, `src`, `dst`: the fields. -/
  | remG16 (sm : BitVec 4) (dm : BitVec 4) (src : BitVec 16) (dst : BitVec 16)
  /-- REM src,dst (5-parcel), match 0xE500 (R191). `sm`, `dm`: the modes, `src`, `dst`: the fields. -/
  | remG32 (sm : BitVec 4) (dm : BitVec 4) (src : BitVec 32) (dst : BitVec 32)
  /-- MUL src,dst (3-parcel), match 0xA600 (R187). `sm`, `dm`: the modes, `src`, `dst`: the fields. -/
  | mulG16 (sm : BitVec 4) (dm : BitVec 4) (src : BitVec 16) (dst : BitVec 16)
  /-- MUL src,dst (5-parcel), match 0xE600 (R187). `sm`, `dm`: the modes, `src`, `dst`: the fields. -/
  | mulG32 (sm : BitVec 4) (dm : BitVec 4) (src : BitVec 32) (dst : BitVec 32)
  /-- DIV src,dst (3-parcel), match 0xA700 (R189). `sm`, `dm`: the modes, `src`, `dst`: the fields. -/
  | divG16 (sm : BitVec 4) (dm : BitVec 4) (src : BitVec 16) (dst : BitVec 16)
  /-- DIV src,dst (5-parcel), match 0xE700 (R189). `sm`, `dm`: the modes, `src`, `dst`: the fields. -/
  | divG32 (sm : BitVec 4) (dm : BitVec 4) (src : BitVec 32) (dst : BitVec 32)
  /-- unimplemented: 3-parcel opcode 0x28, match 0xA800 (R340). `sm`, `dm`: the modes, `src`, `dst`: the fields. -/
  | unimpThree28 (sm : BitVec 4) (dm : BitVec 4) (src : BitVec 16) (dst : BitVec 16)
  /-- unimplemented: 5-parcel opcode 0x28, match 0xE800 (R340). `sm`, `dm`: the modes, `src`, `dst`: the fields. -/
  | unimpFive28 (sm : BitVec 4) (dm : BitVec 4) (src : BitVec 32) (dst : BitVec 32)
  /-- unimplemented: 3-parcel opcode 0x29, match 0xA900 (R340). `sm`, `dm`: the modes, `src`, `dst`: the fields. -/
  | unimpThree29 (sm : BitVec 4) (dm : BitVec 4) (src : BitVec 16) (dst : BitVec 16)
  /-- unimplemented: 5-parcel opcode 0x29, match 0xE900 (R340). `sm`, `dm`: the modes, `src`, `dst`: the fields. -/
  | unimpFive29 (sm : BitVec 4) (dm : BitVec 4) (src : BitVec 32) (dst : BitVec 32)
  /-- unimplemented: 3-parcel opcode 0x2A, match 0xAA00 (R340). `sm`, `dm`: the modes, `src`, `dst`: the fields. -/
  | unimpThree2A (sm : BitVec 4) (dm : BitVec 4) (src : BitVec 16) (dst : BitVec 16)
  /-- unimplemented: 5-parcel opcode 0x2A, match 0xEA00 (R340). `sm`, `dm`: the modes, `src`, `dst`: the fields. -/
  | unimpFive2A (sm : BitVec 4) (dm : BitVec 4) (src : BitVec 32) (dst : BitVec 32)
  /-- unimplemented: 3-parcel opcode 0x2B, match 0xAB00 (R340). `sm`, `dm`: the modes, `src`, `dst`: the fields. -/
  | unimpThree2B (sm : BitVec 4) (dm : BitVec 4) (src : BitVec 16) (dst : BitVec 16)
  /-- unimplemented: 5-parcel opcode 0x2B, match 0xEB00 (R340). `sm`, `dm`: the modes, `src`, `dst`: the fields. -/
  | unimpFive2B (sm : BitVec 4) (dm : BitVec 4) (src : BitVec 32) (dst : BitVec 32)
  /-- SHR src,dst (3-parcel), match 0xAC00 (R303). `sm`, `dm`: the modes, `src`, `dst`: the fields. -/
  | shrG16 (sm : BitVec 4) (dm : BitVec 4) (src : BitVec 16) (dst : BitVec 16)
  /-- SHR src,dst (5-parcel), match 0xEC00 (R303). `sm`, `dm`: the modes, `src`, `dst`: the fields. -/
  | shrG32 (sm : BitVec 4) (dm : BitVec 4) (src : BitVec 32) (dst : BitVec 32)
  /-- USHR src,dst (3-parcel), match 0xAD00 (R305). `sm`, `dm`: the modes, `src`, `dst`: the fields. -/
  | ushrG16 (sm : BitVec 4) (dm : BitVec 4) (src : BitVec 16) (dst : BitVec 16)
  /-- USHR src,dst (5-parcel), match 0xED00 (R305). `sm`, `dm`: the modes, `src`, `dst`: the fields. -/
  | ushrG32 (sm : BitVec 4) (dm : BitVec 4) (src : BitVec 32) (dst : BitVec 32)
  /-- SHL src,dst (3-parcel), match 0xAE00 (R301). `sm`, `dm`: the modes, `src`, `dst`: the fields. -/
  | shlG16 (sm : BitVec 4) (dm : BitVec 4) (src : BitVec 16) (dst : BitVec 16)
  /-- SHL src,dst (5-parcel), match 0xEE00 (R301). `sm`, `dm`: the modes, `src`, `dst`: the fields. -/
  | shlG32 (sm : BitVec 4) (dm : BitVec 4) (src : BitVec 32) (dst : BitVec 32)
  /-- UDIV src,dst (3-parcel), match 0xAF00 (R194). `sm`, `dm`: the modes, `src`, `dst`: the fields. -/
  | udivG16 (sm : BitVec 4) (dm : BitVec 4) (src : BitVec 16) (dst : BitVec 16)
  /-- UDIV src,dst (5-parcel), match 0xEF00 (R194). `sm`, `dm`: the modes, `src`, `dst`: the fields. -/
  | udivG32 (sm : BitVec 4) (dm : BitVec 4) (src : BitVec 32) (dst : BitVec 32)
  /-- SUB3 src,dst (3-parcel), match 0xB000 (R185). `sm`, `dm`: the modes, `src`, `dst`: the fields. -/
  | sub3G16 (sm : BitVec 4) (dm : BitVec 4) (src : BitVec 16) (dst : BitVec 16)
  /-- SUB3 src,dst (5-parcel), match 0xF000 (R185). `sm`, `dm`: the modes, `src`, `dst`: the fields. -/
  | sub3G32 (sm : BitVec 4) (dm : BitVec 4) (src : BitVec 32) (dst : BitVec 32)
  /-- OR3 src,dst (3-parcel), match 0xB100 (R224). `sm`, `dm`: the modes, `src`, `dst`: the fields. -/
  | or3G16 (sm : BitVec 4) (dm : BitVec 4) (src : BitVec 16) (dst : BitVec 16)
  /-- OR3 src,dst (5-parcel), match 0xF100 (R224). `sm`, `dm`: the modes, `src`, `dst`: the fields. -/
  | or3G32 (sm : BitVec 4) (dm : BitVec 4) (src : BitVec 32) (dst : BitVec 32)
  /-- AND3 src,dst (3-parcel), match 0xB200 (R222). `sm`, `dm`: the modes, `src`, `dst`: the fields. -/
  | and3G16 (sm : BitVec 4) (dm : BitVec 4) (src : BitVec 16) (dst : BitVec 16)
  /-- AND3 src,dst (5-parcel), match 0xF200 (R222). `sm`, `dm`: the modes, `src`, `dst`: the fields. -/
  | and3G32 (sm : BitVec 4) (dm : BitVec 4) (src : BitVec 32) (dst : BitVec 32)
  /-- ADD3 src,dst (3-parcel), match 0xB300 (R184). `sm`, `dm`: the modes, `src`, `dst`: the fields. -/
  | add3G16 (sm : BitVec 4) (dm : BitVec 4) (src : BitVec 16) (dst : BitVec 16)
  /-- ADD3 src,dst (5-parcel), match 0xF300 (R184). `sm`, `dm`: the modes, `src`, `dst`: the fields. -/
  | add3G32 (sm : BitVec 4) (dm : BitVec 4) (src : BitVec 32) (dst : BitVec 32)
  /-- XOR3 src,dst (3-parcel), match 0xB400 (R226). `sm`, `dm`: the modes, `src`, `dst`: the fields. -/
  | xor3G16 (sm : BitVec 4) (dm : BitVec 4) (src : BitVec 16) (dst : BitVec 16)
  /-- XOR3 src,dst (5-parcel), match 0xF400 (R226). `sm`, `dm`: the modes, `src`, `dst`: the fields. -/
  | xor3G32 (sm : BitVec 4) (dm : BitVec 4) (src : BitVec 32) (dst : BitVec 32)
  /-- REM3 src,dst (3-parcel), match 0xB500 (R191). `sm`, `dm`: the modes, `src`, `dst`: the fields. -/
  | rem3G16 (sm : BitVec 4) (dm : BitVec 4) (src : BitVec 16) (dst : BitVec 16)
  /-- REM3 src,dst (5-parcel), match 0xF500 (R191). `sm`, `dm`: the modes, `src`, `dst`: the fields. -/
  | rem3G32 (sm : BitVec 4) (dm : BitVec 4) (src : BitVec 32) (dst : BitVec 32)
  /-- MUL3 src,dst (3-parcel), match 0xB600 (R187). `sm`, `dm`: the modes, `src`, `dst`: the fields. -/
  | mul3G16 (sm : BitVec 4) (dm : BitVec 4) (src : BitVec 16) (dst : BitVec 16)
  /-- MUL3 src,dst (5-parcel), match 0xF600 (R187). `sm`, `dm`: the modes, `src`, `dst`: the fields. -/
  | mul3G32 (sm : BitVec 4) (dm : BitVec 4) (src : BitVec 32) (dst : BitVec 32)
  /-- DIV3 src,dst (3-parcel), match 0xB700 (R189). `sm`, `dm`: the modes, `src`, `dst`: the fields. -/
  | div3G16 (sm : BitVec 4) (dm : BitVec 4) (src : BitVec 16) (dst : BitVec 16)
  /-- DIV3 src,dst (5-parcel), match 0xF700 (R189). `sm`, `dm`: the modes, `src`, `dst`: the fields. -/
  | div3G32 (sm : BitVec 4) (dm : BitVec 4) (src : BitVec 32) (dst : BitVec 32)
  /-- unimplemented: 3-parcel opcode 0x38, match 0xB800 (R340). `sm`, `dm`: the modes, `src`, `dst`: the fields. -/
  | unimpThree38 (sm : BitVec 4) (dm : BitVec 4) (src : BitVec 16) (dst : BitVec 16)
  /-- unimplemented: 5-parcel opcode 0x38, match 0xF800 (R340). `sm`, `dm`: the modes, `src`, `dst`: the fields. -/
  | unimpFive38 (sm : BitVec 4) (dm : BitVec 4) (src : BitVec 32) (dst : BitVec 32)
  /-- unimplemented: 3-parcel opcode 0x39, match 0xB900 (R340). `sm`, `dm`: the modes, `src`, `dst`: the fields. -/
  | unimpThree39 (sm : BitVec 4) (dm : BitVec 4) (src : BitVec 16) (dst : BitVec 16)
  /-- unimplemented: 5-parcel opcode 0x39, match 0xF900 (R340). `sm`, `dm`: the modes, `src`, `dst`: the fields. -/
  | unimpFive39 (sm : BitVec 4) (dm : BitVec 4) (src : BitVec 32) (dst : BitVec 32)
  /-- unimplemented: 3-parcel opcode 0x3A, match 0xBA00 (R340). `sm`, `dm`: the modes, `src`, `dst`: the fields. -/
  | unimpThree3A (sm : BitVec 4) (dm : BitVec 4) (src : BitVec 16) (dst : BitVec 16)
  /-- unimplemented: 5-parcel opcode 0x3A, match 0xFA00 (R340). `sm`, `dm`: the modes, `src`, `dst`: the fields. -/
  | unimpFive3A (sm : BitVec 4) (dm : BitVec 4) (src : BitVec 32) (dst : BitVec 32)
  /-- unimplemented: 3-parcel opcode 0x3B, match 0xBB00 (R340). `sm`, `dm`: the modes, `src`, `dst`: the fields. -/
  | unimpThree3B (sm : BitVec 4) (dm : BitVec 4) (src : BitVec 16) (dst : BitVec 16)
  /-- unimplemented: 5-parcel opcode 0x3B, match 0xFB00 (R340). `sm`, `dm`: the modes, `src`, `dst`: the fields. -/
  | unimpFive3B (sm : BitVec 4) (dm : BitVec 4) (src : BitVec 32) (dst : BitVec 32)
  /-- SHR3 src,dst (3-parcel), match 0xBC00 (R304). `sm`, `dm`: the modes, `src`, `dst`: the fields. -/
  | shr3G16 (sm : BitVec 4) (dm : BitVec 4) (src : BitVec 16) (dst : BitVec 16)
  /-- SHR3 src,dst (5-parcel), match 0xFC00 (R304). `sm`, `dm`: the modes, `src`, `dst`: the fields. -/
  | shr3G32 (sm : BitVec 4) (dm : BitVec 4) (src : BitVec 32) (dst : BitVec 32)
  /-- USHR3 src,dst (3-parcel), match 0xBD00 (R306). `sm`, `dm`: the modes, `src`, `dst`: the fields. -/
  | ushr3G16 (sm : BitVec 4) (dm : BitVec 4) (src : BitVec 16) (dst : BitVec 16)
  /-- USHR3 src,dst (5-parcel), match 0xFD00 (R306). `sm`, `dm`: the modes, `src`, `dst`: the fields. -/
  | ushr3G32 (sm : BitVec 4) (dm : BitVec 4) (src : BitVec 32) (dst : BitVec 32)
  /-- SHL3 src,dst (3-parcel), match 0xBE00 (R302). `sm`, `dm`: the modes, `src`, `dst`: the fields. -/
  | shl3G16 (sm : BitVec 4) (dm : BitVec 4) (src : BitVec 16) (dst : BitVec 16)
  /-- SHL3 src,dst (5-parcel), match 0xFE00 (R302). `sm`, `dm`: the modes, `src`, `dst`: the fields. -/
  | shl3G32 (sm : BitVec 4) (dm : BitVec 4) (src : BitVec 32) (dst : BitVec 32)
  /-- unimplemented: 3-parcel opcode 0x3F, match 0xBF00 (R340). `sm`, `dm`: the modes, `src`, `dst`: the fields. -/
  | unimpThree3F (sm : BitVec 4) (dm : BitVec 4) (src : BitVec 16) (dst : BitVec 16)
  /-- unimplemented: 5-parcel opcode 0x3F, match 0xFF00 (R340). `sm`, `dm`: the modes, `src`, `dst`: the fields. -/
  | unimpFive3F (sm : BitVec 4) (dm : BitVec 4) (src : BitVec 32) (dst : BitVec 32)
  deriving DecidableEq, Repr

end Sys2Proof
end

