-- ==== Sys2Proof/WellFormed.lean ====
section
/-! DEFINITION. Which terms of `Instr` are instructions of the machine. Every field of every constructor has the
width of its encoding, so the only ill-formed terms are those of the CPU prefix (spec/30_encoding.md R128). -/

namespace Sys2Proof

/-- How many parcels the instruction has (R120); a CPU prefix counts as part of its instruction (R128). -/
def Instr.parcels : Instr → Nat
  | .cpuWide inner => 1 + inner.parcels
  | .cpuShort _ => 2
  | .kcallImm10 _ => 1
  | .callPc10 _ => 1
  | .enterStk8 _ => 1
  | .catchStk8 _ => 1
  | .returnStk8 _ => 1
  | .popnStk8 _ => 1
  | .jmpPc10 _ => 1
  | .jmpfnPc10 _ => 1
  | .jmpfyPc10 _ => 1
  | .jmptnPc10 _ => 1
  | .jmptyPc10 _ => 1
  | .unimpOne08 _ => 1
  | .unimpOne09 _ => 1
  | .movWS _ _ => 1
  | .kret => 1
  | .nop => 1
  | .flushi => 1
  | .flushp => 1
  | .cret => 1
  | .flushd => 1
  | .testv => 1
  | .testc => 1
  | .clre => 1
  | .unimpNil007 => 1
  | .unimpNil00B => 1
  | .unimpNil00C _ => 1
  | .unimpNil010 _ => 1
  | .unimpNil020 _ => 1
  | .unimpNil040 _ => 1
  | .unimpNil080 _ => 1
  | .unimpNil100 _ => 1
  | .trappedNiladic _ => 1
  | .unimpOne0C _ => 1
  | .add3WS _ _ => 1
  | .and3CS _ _ => 1
  | .andSS _ _ => 1
  | .cmpeqCS _ _ => 1
  | .cmpgtSS _ _ => 1
  | .cmpgtCS _ _ => 1
  | .cmpeqSS _ _ => 1
  | .addCS _ _ => 1
  | .add3CS _ _ => 1
  | .addSS _ _ => 1
  | .add3SS _ _ => 1
  | .movSS _ _ => 1
  | .movIS _ _ => 1
  | .movSI _ _ => 1
  | .movII _ _ => 1
  | .movCS _ _ => 1
  | .movaSS _ _ => 1
  | .shl3CS _ _ => 1
  | .shr3CS _ _ => 1
  | .kcallW32 _ _ => 3
  | .callF32 _ _ => 3
  | .returnS32 _ _ => 3
  | .jmpF32 _ _ => 3
  | .jmpfnA32 _ _ => 3
  | .jmpfyA32 _ _ => 3
  | .jmptnA32 _ _ => 3
  | .jmptyA32 _ _ => 3
  | .catchW32 _ _ => 3
  | .enterW32 _ _ => 3
  | .ldraaF32 _ _ => 3
  | .flushpteW32 _ _ => 3
  | .flushpbeW32 _ _ => 3
  | .flushdceW32 _ _ => 3
  | .unimpMonE _ _ => 3
  | .popnS32 _ _ => 3
  | .unimpFive00 _ _ _ _ => 5
  | .oriG16 _ _ _ _ => 3
  | .oriG32 _ _ _ _ => 5
  | .andiG16 _ _ _ _ => 3
  | .andiG32 _ _ _ _ => 5
  | .addiG16 _ _ _ _ => 3
  | .addiG32 _ _ _ _ => 5
  | .movaG16 _ _ _ _ => 3
  | .movaG32 _ _ _ _ => 5
  | .uremG16 _ _ _ _ => 3
  | .uremG32 _ _ _ _ => 5
  | .movG16 _ _ _ _ => 3
  | .movG32 _ _ _ _ => 5
  | .dqmG16 _ _ _ _ => 3
  | .dqmG32 _ _ _ _ => 5
  | .unimpThree08 _ _ _ _ => 3
  | .unimpFive08 _ _ _ _ => 5
  | .unimpThree09 _ _ _ _ => 3
  | .unimpFive09 _ _ _ _ => 5
  | .unimpThree0A _ _ _ _ => 3
  | .unimpFive0A _ _ _ _ => 5
  | .unimpThree0B _ _ _ _ => 3
  | .unimpFive0B _ _ _ _ => 5
  | .taddG16 _ _ _ _ => 3
  | .taddG32 _ _ _ _ => 5
  | .tsubG16 _ _ _ _ => 3
  | .tsubG32 _ _ _ _ => 5
  | .unimpThree0E _ _ _ _ => 3
  | .unimpFive0E _ _ _ _ => 5
  | .unimpThree0F _ _ _ _ => 3
  | .unimpFive0F _ _ _ _ => 5
  | .unimpThree10 _ _ _ _ => 3
  | .unimpFive10 _ _ _ _ => 5
  | .unimpThree11 _ _ _ _ => 3
  | .unimpFive11 _ _ _ _ => 5
  | .unimpThree12 _ _ _ _ => 3
  | .unimpFive12 _ _ _ _ => 5
  | .unimpThree13 _ _ _ _ => 3
  | .unimpFive13 _ _ _ _ => 5
  | .unimpThree14 _ _ _ _ => 3
  | .unimpFive14 _ _ _ _ => 5
  | .unimpThree15 _ _ _ _ => 3
  | .unimpFive15 _ _ _ _ => 5
  | .unimpThree16 _ _ _ _ => 3
  | .unimpFive16 _ _ _ _ => 5
  | .unimpThree17 _ _ _ _ => 3
  | .unimpFive17 _ _ _ _ => 5
  | .unimpThree18 _ _ _ _ => 3
  | .unimpFive18 _ _ _ _ => 5
  | .unimpThree19 _ _ _ _ => 3
  | .unimpFive19 _ _ _ _ => 5
  | .unimpThree1A _ _ _ _ => 3
  | .unimpFive1A _ _ _ _ => 5
  | .unimpThree1B _ _ _ _ => 3
  | .unimpFive1B _ _ _ _ => 5
  | .unimpThree1C _ _ _ _ => 3
  | .unimpFive1C _ _ _ _ => 5
  | .cmpgtG16 _ _ _ _ => 3
  | .cmpgtG32 _ _ _ _ => 5
  | .cmphiG16 _ _ _ _ => 3
  | .cmphiG32 _ _ _ _ => 5
  | .cmpeqG16 _ _ _ _ => 3
  | .cmpeqG32 _ _ _ _ => 5
  | .subG16 _ _ _ _ => 3
  | .subG32 _ _ _ _ => 5
  | .orG16 _ _ _ _ => 3
  | .orG32 _ _ _ _ => 5
  | .andG16 _ _ _ _ => 3
  | .andG32 _ _ _ _ => 5
  | .addG16 _ _ _ _ => 3
  | .addG32 _ _ _ _ => 5
  | .xorG16 _ _ _ _ => 3
  | .xorG32 _ _ _ _ => 5
  | .remG16 _ _ _ _ => 3
  | .remG32 _ _ _ _ => 5
  | .mulG16 _ _ _ _ => 3
  | .mulG32 _ _ _ _ => 5
  | .divG16 _ _ _ _ => 3
  | .divG32 _ _ _ _ => 5
  | .unimpThree28 _ _ _ _ => 3
  | .unimpFive28 _ _ _ _ => 5
  | .unimpThree29 _ _ _ _ => 3
  | .unimpFive29 _ _ _ _ => 5
  | .unimpThree2A _ _ _ _ => 3
  | .unimpFive2A _ _ _ _ => 5
  | .unimpThree2B _ _ _ _ => 3
  | .unimpFive2B _ _ _ _ => 5
  | .shrG16 _ _ _ _ => 3
  | .shrG32 _ _ _ _ => 5
  | .ushrG16 _ _ _ _ => 3
  | .ushrG32 _ _ _ _ => 5
  | .shlG16 _ _ _ _ => 3
  | .shlG32 _ _ _ _ => 5
  | .udivG16 _ _ _ _ => 3
  | .udivG32 _ _ _ _ => 5
  | .sub3G16 _ _ _ _ => 3
  | .sub3G32 _ _ _ _ => 5
  | .or3G16 _ _ _ _ => 3
  | .or3G32 _ _ _ _ => 5
  | .and3G16 _ _ _ _ => 3
  | .and3G32 _ _ _ _ => 5
  | .add3G16 _ _ _ _ => 3
  | .add3G32 _ _ _ _ => 5
  | .xor3G16 _ _ _ _ => 3
  | .xor3G32 _ _ _ _ => 5
  | .rem3G16 _ _ _ _ => 3
  | .rem3G32 _ _ _ _ => 5
  | .mul3G16 _ _ _ _ => 3
  | .mul3G32 _ _ _ _ => 5
  | .div3G16 _ _ _ _ => 3
  | .div3G32 _ _ _ _ => 5
  | .unimpThree38 _ _ _ _ => 3
  | .unimpFive38 _ _ _ _ => 5
  | .unimpThree39 _ _ _ _ => 3
  | .unimpFive39 _ _ _ _ => 5
  | .unimpThree3A _ _ _ _ => 3
  | .unimpFive3A _ _ _ _ => 5
  | .unimpThree3B _ _ _ _ => 3
  | .unimpFive3B _ _ _ _ => 5
  | .shr3G16 _ _ _ _ => 3
  | .shr3G32 _ _ _ _ => 5
  | .ushr3G16 _ _ _ _ => 3
  | .ushr3G32 _ _ _ _ => 5
  | .shl3G16 _ _ _ _ => 3
  | .shl3G32 _ _ _ _ => 5
  | .unimpThree3F _ _ _ _ => 3
  | .unimpFive3F _ _ _ _ => 5

/-- Whether the instruction has no CPU prefix. -/
def Instr.unprefixed : Instr → Bool
  | .cpuWide _ => false
  | .cpuShort _ => false
  | .kcallImm10 _ => true
  | .callPc10 _ => true
  | .enterStk8 _ => true
  | .catchStk8 _ => true
  | .returnStk8 _ => true
  | .popnStk8 _ => true
  | .jmpPc10 _ => true
  | .jmpfnPc10 _ => true
  | .jmpfyPc10 _ => true
  | .jmptnPc10 _ => true
  | .jmptyPc10 _ => true
  | .unimpOne08 _ => true
  | .unimpOne09 _ => true
  | .movWS _ _ => true
  | .kret => true
  | .nop => true
  | .flushi => true
  | .flushp => true
  | .cret => true
  | .flushd => true
  | .testv => true
  | .testc => true
  | .clre => true
  | .unimpNil007 => true
  | .unimpNil00B => true
  | .unimpNil00C _ => true
  | .unimpNil010 _ => true
  | .unimpNil020 _ => true
  | .unimpNil040 _ => true
  | .unimpNil080 _ => true
  | .unimpNil100 _ => true
  | .trappedNiladic _ => true
  | .unimpOne0C _ => true
  | .add3WS _ _ => true
  | .and3CS _ _ => true
  | .andSS _ _ => true
  | .cmpeqCS _ _ => true
  | .cmpgtSS _ _ => true
  | .cmpgtCS _ _ => true
  | .cmpeqSS _ _ => true
  | .addCS _ _ => true
  | .add3CS _ _ => true
  | .addSS _ _ => true
  | .add3SS _ _ => true
  | .movSS _ _ => true
  | .movIS _ _ => true
  | .movSI _ _ => true
  | .movII _ _ => true
  | .movCS _ _ => true
  | .movaSS _ _ => true
  | .shl3CS _ _ => true
  | .shr3CS _ _ => true
  | .kcallW32 _ _ => true
  | .callF32 _ _ => true
  | .returnS32 _ _ => true
  | .jmpF32 _ _ => true
  | .jmpfnA32 _ _ => true
  | .jmpfyA32 _ _ => true
  | .jmptnA32 _ _ => true
  | .jmptyA32 _ _ => true
  | .catchW32 _ _ => true
  | .enterW32 _ _ => true
  | .ldraaF32 _ _ => true
  | .flushpteW32 _ _ => true
  | .flushpbeW32 _ _ => true
  | .flushdceW32 _ _ => true
  | .unimpMonE _ _ => true
  | .popnS32 _ _ => true
  | .unimpFive00 _ _ _ _ => true
  | .oriG16 _ _ _ _ => true
  | .oriG32 _ _ _ _ => true
  | .andiG16 _ _ _ _ => true
  | .andiG32 _ _ _ _ => true
  | .addiG16 _ _ _ _ => true
  | .addiG32 _ _ _ _ => true
  | .movaG16 _ _ _ _ => true
  | .movaG32 _ _ _ _ => true
  | .uremG16 _ _ _ _ => true
  | .uremG32 _ _ _ _ => true
  | .movG16 _ _ _ _ => true
  | .movG32 _ _ _ _ => true
  | .dqmG16 _ _ _ _ => true
  | .dqmG32 _ _ _ _ => true
  | .unimpThree08 _ _ _ _ => true
  | .unimpFive08 _ _ _ _ => true
  | .unimpThree09 _ _ _ _ => true
  | .unimpFive09 _ _ _ _ => true
  | .unimpThree0A _ _ _ _ => true
  | .unimpFive0A _ _ _ _ => true
  | .unimpThree0B _ _ _ _ => true
  | .unimpFive0B _ _ _ _ => true
  | .taddG16 _ _ _ _ => true
  | .taddG32 _ _ _ _ => true
  | .tsubG16 _ _ _ _ => true
  | .tsubG32 _ _ _ _ => true
  | .unimpThree0E _ _ _ _ => true
  | .unimpFive0E _ _ _ _ => true
  | .unimpThree0F _ _ _ _ => true
  | .unimpFive0F _ _ _ _ => true
  | .unimpThree10 _ _ _ _ => true
  | .unimpFive10 _ _ _ _ => true
  | .unimpThree11 _ _ _ _ => true
  | .unimpFive11 _ _ _ _ => true
  | .unimpThree12 _ _ _ _ => true
  | .unimpFive12 _ _ _ _ => true
  | .unimpThree13 _ _ _ _ => true
  | .unimpFive13 _ _ _ _ => true
  | .unimpThree14 _ _ _ _ => true
  | .unimpFive14 _ _ _ _ => true
  | .unimpThree15 _ _ _ _ => true
  | .unimpFive15 _ _ _ _ => true
  | .unimpThree16 _ _ _ _ => true
  | .unimpFive16 _ _ _ _ => true
  | .unimpThree17 _ _ _ _ => true
  | .unimpFive17 _ _ _ _ => true
  | .unimpThree18 _ _ _ _ => true
  | .unimpFive18 _ _ _ _ => true
  | .unimpThree19 _ _ _ _ => true
  | .unimpFive19 _ _ _ _ => true
  | .unimpThree1A _ _ _ _ => true
  | .unimpFive1A _ _ _ _ => true
  | .unimpThree1B _ _ _ _ => true
  | .unimpFive1B _ _ _ _ => true
  | .unimpThree1C _ _ _ _ => true
  | .unimpFive1C _ _ _ _ => true
  | .cmpgtG16 _ _ _ _ => true
  | .cmpgtG32 _ _ _ _ => true
  | .cmphiG16 _ _ _ _ => true
  | .cmphiG32 _ _ _ _ => true
  | .cmpeqG16 _ _ _ _ => true
  | .cmpeqG32 _ _ _ _ => true
  | .subG16 _ _ _ _ => true
  | .subG32 _ _ _ _ => true
  | .orG16 _ _ _ _ => true
  | .orG32 _ _ _ _ => true
  | .andG16 _ _ _ _ => true
  | .andG32 _ _ _ _ => true
  | .addG16 _ _ _ _ => true
  | .addG32 _ _ _ _ => true
  | .xorG16 _ _ _ _ => true
  | .xorG32 _ _ _ _ => true
  | .remG16 _ _ _ _ => true
  | .remG32 _ _ _ _ => true
  | .mulG16 _ _ _ _ => true
  | .mulG32 _ _ _ _ => true
  | .divG16 _ _ _ _ => true
  | .divG32 _ _ _ _ => true
  | .unimpThree28 _ _ _ _ => true
  | .unimpFive28 _ _ _ _ => true
  | .unimpThree29 _ _ _ _ => true
  | .unimpFive29 _ _ _ _ => true
  | .unimpThree2A _ _ _ _ => true
  | .unimpFive2A _ _ _ _ => true
  | .unimpThree2B _ _ _ _ => true
  | .unimpFive2B _ _ _ _ => true
  | .shrG16 _ _ _ _ => true
  | .shrG32 _ _ _ _ => true
  | .ushrG16 _ _ _ _ => true
  | .ushrG32 _ _ _ _ => true
  | .shlG16 _ _ _ _ => true
  | .shlG32 _ _ _ _ => true
  | .udivG16 _ _ _ _ => true
  | .udivG32 _ _ _ _ => true
  | .sub3G16 _ _ _ _ => true
  | .sub3G32 _ _ _ _ => true
  | .or3G16 _ _ _ _ => true
  | .or3G32 _ _ _ _ => true
  | .and3G16 _ _ _ _ => true
  | .and3G32 _ _ _ _ => true
  | .add3G16 _ _ _ _ => true
  | .add3G32 _ _ _ _ => true
  | .xor3G16 _ _ _ _ => true
  | .xor3G32 _ _ _ _ => true
  | .rem3G16 _ _ _ _ => true
  | .rem3G32 _ _ _ _ => true
  | .mul3G16 _ _ _ _ => true
  | .mul3G32 _ _ _ _ => true
  | .div3G16 _ _ _ _ => true
  | .div3G32 _ _ _ _ => true
  | .unimpThree38 _ _ _ _ => true
  | .unimpFive38 _ _ _ _ => true
  | .unimpThree39 _ _ _ _ => true
  | .unimpFive39 _ _ _ _ => true
  | .unimpThree3A _ _ _ _ => true
  | .unimpFive3A _ _ _ _ => true
  | .unimpThree3B _ _ _ _ => true
  | .unimpFive3B _ _ _ _ => true
  | .shr3G16 _ _ _ _ => true
  | .shr3G32 _ _ _ _ => true
  | .ushr3G16 _ _ _ _ => true
  | .ushr3G32 _ _ _ _ => true
  | .shl3G16 _ _ _ _ => true
  | .shl3G32 _ _ _ _ => true
  | .unimpThree3F _ _ _ _ => true
  | .unimpFive3F _ _ _ _ => true

/-- A three- or five-parcel instruction without a prefix: what a CPU prefix may modify (R128). -/
def Instr.isWide (i : Instr) : Bool := i.unprefixed && decide (2 < i.parcels)

/-- Well-formed: a CPU prefix stands before a three- or five-parcel instruction (`cpuWide`), or is followed
by the parcel of a one-parcel instruction, whose bit 15 is 0 (`cpuShort`). -/
def Instr.wellFormed : Instr → Bool
  | .cpuWide inner => inner.isWide
  | .cpuShort next => !next.getLsbD 15
  | .kcallImm10 _ => true
  | .callPc10 _ => true
  | .enterStk8 _ => true
  | .catchStk8 _ => true
  | .returnStk8 _ => true
  | .popnStk8 _ => true
  | .jmpPc10 _ => true
  | .jmpfnPc10 _ => true
  | .jmpfyPc10 _ => true
  | .jmptnPc10 _ => true
  | .jmptyPc10 _ => true
  | .unimpOne08 _ => true
  | .unimpOne09 _ => true
  | .movWS _ _ => true
  | .kret => true
  | .nop => true
  | .flushi => true
  | .flushp => true
  | .cret => true
  | .flushd => true
  | .testv => true
  | .testc => true
  | .clre => true
  | .unimpNil007 => true
  | .unimpNil00B => true
  | .unimpNil00C _ => true
  | .unimpNil010 _ => true
  | .unimpNil020 _ => true
  | .unimpNil040 _ => true
  | .unimpNil080 _ => true
  | .unimpNil100 _ => true
  | .trappedNiladic _ => true
  | .unimpOne0C _ => true
  | .add3WS _ _ => true
  | .and3CS _ _ => true
  | .andSS _ _ => true
  | .cmpeqCS _ _ => true
  | .cmpgtSS _ _ => true
  | .cmpgtCS _ _ => true
  | .cmpeqSS _ _ => true
  | .addCS _ _ => true
  | .add3CS _ _ => true
  | .addSS _ _ => true
  | .add3SS _ _ => true
  | .movSS _ _ => true
  | .movIS _ _ => true
  | .movSI _ _ => true
  | .movII _ _ => true
  | .movCS _ _ => true
  | .movaSS _ _ => true
  | .shl3CS _ _ => true
  | .shr3CS _ _ => true
  | .kcallW32 _ _ => true
  | .callF32 _ _ => true
  | .returnS32 _ _ => true
  | .jmpF32 _ _ => true
  | .jmpfnA32 _ _ => true
  | .jmpfyA32 _ _ => true
  | .jmptnA32 _ _ => true
  | .jmptyA32 _ _ => true
  | .catchW32 _ _ => true
  | .enterW32 _ _ => true
  | .ldraaF32 _ _ => true
  | .flushpteW32 _ _ => true
  | .flushpbeW32 _ _ => true
  | .flushdceW32 _ _ => true
  | .unimpMonE _ _ => true
  | .popnS32 _ _ => true
  | .unimpFive00 _ _ _ _ => true
  | .oriG16 _ _ _ _ => true
  | .oriG32 _ _ _ _ => true
  | .andiG16 _ _ _ _ => true
  | .andiG32 _ _ _ _ => true
  | .addiG16 _ _ _ _ => true
  | .addiG32 _ _ _ _ => true
  | .movaG16 _ _ _ _ => true
  | .movaG32 _ _ _ _ => true
  | .uremG16 _ _ _ _ => true
  | .uremG32 _ _ _ _ => true
  | .movG16 _ _ _ _ => true
  | .movG32 _ _ _ _ => true
  | .dqmG16 _ _ _ _ => true
  | .dqmG32 _ _ _ _ => true
  | .unimpThree08 _ _ _ _ => true
  | .unimpFive08 _ _ _ _ => true
  | .unimpThree09 _ _ _ _ => true
  | .unimpFive09 _ _ _ _ => true
  | .unimpThree0A _ _ _ _ => true
  | .unimpFive0A _ _ _ _ => true
  | .unimpThree0B _ _ _ _ => true
  | .unimpFive0B _ _ _ _ => true
  | .taddG16 _ _ _ _ => true
  | .taddG32 _ _ _ _ => true
  | .tsubG16 _ _ _ _ => true
  | .tsubG32 _ _ _ _ => true
  | .unimpThree0E _ _ _ _ => true
  | .unimpFive0E _ _ _ _ => true
  | .unimpThree0F _ _ _ _ => true
  | .unimpFive0F _ _ _ _ => true
  | .unimpThree10 _ _ _ _ => true
  | .unimpFive10 _ _ _ _ => true
  | .unimpThree11 _ _ _ _ => true
  | .unimpFive11 _ _ _ _ => true
  | .unimpThree12 _ _ _ _ => true
  | .unimpFive12 _ _ _ _ => true
  | .unimpThree13 _ _ _ _ => true
  | .unimpFive13 _ _ _ _ => true
  | .unimpThree14 _ _ _ _ => true
  | .unimpFive14 _ _ _ _ => true
  | .unimpThree15 _ _ _ _ => true
  | .unimpFive15 _ _ _ _ => true
  | .unimpThree16 _ _ _ _ => true
  | .unimpFive16 _ _ _ _ => true
  | .unimpThree17 _ _ _ _ => true
  | .unimpFive17 _ _ _ _ => true
  | .unimpThree18 _ _ _ _ => true
  | .unimpFive18 _ _ _ _ => true
  | .unimpThree19 _ _ _ _ => true
  | .unimpFive19 _ _ _ _ => true
  | .unimpThree1A _ _ _ _ => true
  | .unimpFive1A _ _ _ _ => true
  | .unimpThree1B _ _ _ _ => true
  | .unimpFive1B _ _ _ _ => true
  | .unimpThree1C _ _ _ _ => true
  | .unimpFive1C _ _ _ _ => true
  | .cmpgtG16 _ _ _ _ => true
  | .cmpgtG32 _ _ _ _ => true
  | .cmphiG16 _ _ _ _ => true
  | .cmphiG32 _ _ _ _ => true
  | .cmpeqG16 _ _ _ _ => true
  | .cmpeqG32 _ _ _ _ => true
  | .subG16 _ _ _ _ => true
  | .subG32 _ _ _ _ => true
  | .orG16 _ _ _ _ => true
  | .orG32 _ _ _ _ => true
  | .andG16 _ _ _ _ => true
  | .andG32 _ _ _ _ => true
  | .addG16 _ _ _ _ => true
  | .addG32 _ _ _ _ => true
  | .xorG16 _ _ _ _ => true
  | .xorG32 _ _ _ _ => true
  | .remG16 _ _ _ _ => true
  | .remG32 _ _ _ _ => true
  | .mulG16 _ _ _ _ => true
  | .mulG32 _ _ _ _ => true
  | .divG16 _ _ _ _ => true
  | .divG32 _ _ _ _ => true
  | .unimpThree28 _ _ _ _ => true
  | .unimpFive28 _ _ _ _ => true
  | .unimpThree29 _ _ _ _ => true
  | .unimpFive29 _ _ _ _ => true
  | .unimpThree2A _ _ _ _ => true
  | .unimpFive2A _ _ _ _ => true
  | .unimpThree2B _ _ _ _ => true
  | .unimpFive2B _ _ _ _ => true
  | .shrG16 _ _ _ _ => true
  | .shrG32 _ _ _ _ => true
  | .ushrG16 _ _ _ _ => true
  | .ushrG32 _ _ _ _ => true
  | .shlG16 _ _ _ _ => true
  | .shlG32 _ _ _ _ => true
  | .udivG16 _ _ _ _ => true
  | .udivG32 _ _ _ _ => true
  | .sub3G16 _ _ _ _ => true
  | .sub3G32 _ _ _ _ => true
  | .or3G16 _ _ _ _ => true
  | .or3G32 _ _ _ _ => true
  | .and3G16 _ _ _ _ => true
  | .and3G32 _ _ _ _ => true
  | .add3G16 _ _ _ _ => true
  | .add3G32 _ _ _ _ => true
  | .xor3G16 _ _ _ _ => true
  | .xor3G32 _ _ _ _ => true
  | .rem3G16 _ _ _ _ => true
  | .rem3G32 _ _ _ _ => true
  | .mul3G16 _ _ _ _ => true
  | .mul3G32 _ _ _ _ => true
  | .div3G16 _ _ _ _ => true
  | .div3G32 _ _ _ _ => true
  | .unimpThree38 _ _ _ _ => true
  | .unimpFive38 _ _ _ _ => true
  | .unimpThree39 _ _ _ _ => true
  | .unimpFive39 _ _ _ _ => true
  | .unimpThree3A _ _ _ _ => true
  | .unimpFive3A _ _ _ _ => true
  | .unimpThree3B _ _ _ _ => true
  | .unimpFive3B _ _ _ _ => true
  | .shr3G16 _ _ _ _ => true
  | .shr3G32 _ _ _ _ => true
  | .ushr3G16 _ _ _ _ => true
  | .ushr3G32 _ _ _ _ => true
  | .shl3G16 _ _ _ _ => true
  | .shl3G32 _ _ _ _ => true
  | .unimpThree3F _ _ _ _ => true
  | .unimpFive3F _ _ _ _ => true

end Sys2Proof
end

