-- ==== Sys2Proof/Decode.lean ====
section
/-! DEFINITION. Decoding and encoding, from the tables of spec/30_encoding.md R123 to R128 and R150 to R155 (the
decision for the one-parcel layout is D3, log 1; for the order of the five-parcel fields D6, log 2). -/

namespace Sys2Proof

/-- Why bytes are not an instruction. Every first parcel selects a row (R120, R164), so bytes are rejected only
when they end too soon, or for a CPU parcel where only an unprefixed instruction can stand. -/
inductive DecodeError where
  /-- There are no bytes, or a single byte. -/
  | noParcel
  /-- The first parcel asks for more parcels than there are. -/
  | truncated
  /-- A CPU parcel where an unprefixed instruction is wanted. -/
  | prefixParcel
  deriving DecidableEq, Repr

/-- The CPU prefix parcel (R128). -/
def cpuParcel : Parcel := 0x2C00#16

/-- The length in parcels of an unprefixed instruction, from bits 15:14 of its first parcel (R120). -/
def parcelCount (p0 : Parcel) : Nat :=
  if p0.getLsbD 15 then (if p0.getLsbD 14 then 5 else 3) else 1

/-- The niladics: one-parcel opcode 0x0B with a ten-bit subcode (R152); subcode 0 is the CPU prefix. -/
def decodeNiladic (n : BitVec 10) : Option Instr :=
  if n.getLsbD 9 then some (.trappedNiladic (n.extractLsb' 0 9))
  else if n.getLsbD 8 then some (.unimpNil100 (n.extractLsb' 0 8))
  else if n.getLsbD 7 then some (.unimpNil080 (n.extractLsb' 0 7))
  else if n.getLsbD 6 then some (.unimpNil040 (n.extractLsb' 0 6))
  else if n.getLsbD 5 then some (.unimpNil020 (n.extractLsb' 0 5))
  else if n.getLsbD 4 then some (.unimpNil010 (n.extractLsb' 0 4))
  else match (n.extractLsb' 0 4).toNat with
    | 0x0 => none
    | 0x1 => some .kret
    | 0x2 => some .nop
    | 0x3 => some .flushi
    | 0x4 => some .flushp
    | 0x5 => some .cret
    | 0x6 => some .flushd
    | 0x7 => some .unimpNil007
    | 0x8 => some .testv
    | 0x9 => some .testc
    | 0xA => some .clre
    | 0xB => some .unimpNil00B
    | _ => some (.unimpNil00C (n.extractLsb' 0 2))

/-- One-parcel instructions (R123, R150, R151, R152). -/
def decodeOne (p : Parcel) : Option Instr :=
  let f10 := p.extractLsb' 0 10
  let f8 := p.extractLsb' 0 8
  let s := p.extractLsb' 5 5
  let d := p.extractLsb' 0 5
  match (p.extractLsb' 10 5).toNat with
  | 0x00 => some (.kcallImm10 f10)
  | 0x01 => some (.callPc10 f10)
  | 0x02 => match (p.extractLsb' 8 2).toNat with
    | 0 => some (.enterStk8 f8)
    | 1 => some (.catchStk8 f8)
    | 2 => some (.returnStk8 f8)
    | _ => some (.popnStk8 f8)
  | 0x03 => some (.jmpPc10 f10)
  | 0x04 => some (.jmpfnPc10 f10)
  | 0x05 => some (.jmpfyPc10 f10)
  | 0x06 => some (.jmptnPc10 f10)
  | 0x07 => some (.jmptyPc10 f10)
  | 0x08 => some (.unimpOne08 f10)
  | 0x09 => some (.unimpOne09 f10)
  | 0x0A => some (.movWS s d)
  | 0x0B => decodeNiladic f10
  | 0x0C => some (.unimpOne0C f10)
  | 0x0D => some (.add3WS s d)
  | 0x0E => some (.and3CS s d)
  | 0x0F => some (.andSS s d)
  | 0x10 => some (.cmpeqCS s d)
  | 0x11 => some (.cmpgtSS s d)
  | 0x12 => some (.cmpgtCS s d)
  | 0x13 => some (.cmpeqSS s d)
  | 0x14 => some (.addCS s d)
  | 0x15 => some (.add3CS s d)
  | 0x16 => some (.addSS s d)
  | 0x17 => some (.add3SS s d)
  | 0x18 => some (.movSS s d)
  | 0x19 => some (.movIS s d)
  | 0x1A => some (.movSI s d)
  | 0x1B => some (.movII s d)
  | 0x1C => some (.movCS s d)
  | 0x1D => some (.movaSS s d)
  | 0x1E => some (.shl3CS s d)
  | _ => some (.shr3CS s d)

/-- Three-parcel monadics: opcode 0x00 with the subcode in bits 3:0 (R125, R154). -/
def decodeMonadic (sub m : BitVec 4) (o : BitVec 32) : Instr :=
  match sub.toNat with
  | 0x0 => .kcallW32 m o
  | 0x1 => .callF32 m o
  | 0x2 => .returnS32 m o
  | 0x3 => .jmpF32 m o
  | 0x4 => .jmpfnA32 m o
  | 0x5 => .jmpfyA32 m o
  | 0x6 => .jmptnA32 m o
  | 0x7 => .jmptyA32 m o
  | 0x8 => .catchW32 m o
  | 0x9 => .enterW32 m o
  | 0xA => .ldraaF32 m o
  | 0xB => .flushpteW32 m o
  | 0xC => .flushpbeW32 m o
  | 0xD => .flushdceW32 m o
  | 0xE => .unimpMonE m o
  | _ => .popnS32 m o

/-- Three-parcel instructions (R125, R153): `p0` the first parcel, `a` and `b` the other two. -/
def decodeThree (p0 a b : Parcel) : Instr :=
  let sm := p0.extractLsb' 4 4
  let dm := p0.extractLsb' 0 4
  match (p0.extractLsb' 8 6).toNat with
  | 0x00 => decodeMonadic dm sm (a ++ b)
  | 0x01 => .oriG16 sm dm a b
  | 0x02 => .andiG16 sm dm a b
  | 0x03 => .addiG16 sm dm a b
  | 0x04 => .movaG16 sm dm a b
  | 0x05 => .uremG16 sm dm a b
  | 0x06 => .movG16 sm dm a b
  | 0x07 => .dqmG16 sm dm a b
  | 0x08 => .unimpThree08 sm dm a b
  | 0x09 => .unimpThree09 sm dm a b
  | 0x0A => .unimpThree0A sm dm a b
  | 0x0B => .unimpThree0B sm dm a b
  | 0x0C => .taddG16 sm dm a b
  | 0x0D => .tsubG16 sm dm a b
  | 0x0E => .unimpThree0E sm dm a b
  | 0x0F => .unimpThree0F sm dm a b
  | 0x10 => .unimpThree10 sm dm a b
  | 0x11 => .unimpThree11 sm dm a b
  | 0x12 => .unimpThree12 sm dm a b
  | 0x13 => .unimpThree13 sm dm a b
  | 0x14 => .unimpThree14 sm dm a b
  | 0x15 => .unimpThree15 sm dm a b
  | 0x16 => .unimpThree16 sm dm a b
  | 0x17 => .unimpThree17 sm dm a b
  | 0x18 => .unimpThree18 sm dm a b
  | 0x19 => .unimpThree19 sm dm a b
  | 0x1A => .unimpThree1A sm dm a b
  | 0x1B => .unimpThree1B sm dm a b
  | 0x1C => .unimpThree1C sm dm a b
  | 0x1D => .cmpgtG16 sm dm a b
  | 0x1E => .cmphiG16 sm dm a b
  | 0x1F => .cmpeqG16 sm dm a b
  | 0x20 => .subG16 sm dm a b
  | 0x21 => .orG16 sm dm a b
  | 0x22 => .andG16 sm dm a b
  | 0x23 => .addG16 sm dm a b
  | 0x24 => .xorG16 sm dm a b
  | 0x25 => .remG16 sm dm a b
  | 0x26 => .mulG16 sm dm a b
  | 0x27 => .divG16 sm dm a b
  | 0x28 => .unimpThree28 sm dm a b
  | 0x29 => .unimpThree29 sm dm a b
  | 0x2A => .unimpThree2A sm dm a b
  | 0x2B => .unimpThree2B sm dm a b
  | 0x2C => .shrG16 sm dm a b
  | 0x2D => .ushrG16 sm dm a b
  | 0x2E => .shlG16 sm dm a b
  | 0x2F => .udivG16 sm dm a b
  | 0x30 => .sub3G16 sm dm a b
  | 0x31 => .or3G16 sm dm a b
  | 0x32 => .and3G16 sm dm a b
  | 0x33 => .add3G16 sm dm a b
  | 0x34 => .xor3G16 sm dm a b
  | 0x35 => .rem3G16 sm dm a b
  | 0x36 => .mul3G16 sm dm a b
  | 0x37 => .div3G16 sm dm a b
  | 0x38 => .unimpThree38 sm dm a b
  | 0x39 => .unimpThree39 sm dm a b
  | 0x3A => .unimpThree3A sm dm a b
  | 0x3B => .unimpThree3B sm dm a b
  | 0x3C => .shr3G16 sm dm a b
  | 0x3D => .ushr3G16 sm dm a b
  | 0x3E => .shl3G16 sm dm a b
  | _ => .unimpThree3F sm dm a b

/-- Five-parcel instructions (R127, R155): the source field before the destination field, each with its high
half first (D6, log 2). -/
def decodeFive (p0 : Parcel) (a b : BitVec 32) : Instr :=
  let sm := p0.extractLsb' 4 4
  let dm := p0.extractLsb' 0 4
  match (p0.extractLsb' 8 6).toNat with
  | 0x00 => .unimpFive00 sm dm a b
  | 0x01 => .oriG32 sm dm a b
  | 0x02 => .andiG32 sm dm a b
  | 0x03 => .addiG32 sm dm a b
  | 0x04 => .movaG32 sm dm a b
  | 0x05 => .uremG32 sm dm a b
  | 0x06 => .movG32 sm dm a b
  | 0x07 => .dqmG32 sm dm a b
  | 0x08 => .unimpFive08 sm dm a b
  | 0x09 => .unimpFive09 sm dm a b
  | 0x0A => .unimpFive0A sm dm a b
  | 0x0B => .unimpFive0B sm dm a b
  | 0x0C => .taddG32 sm dm a b
  | 0x0D => .tsubG32 sm dm a b
  | 0x0E => .unimpFive0E sm dm a b
  | 0x0F => .unimpFive0F sm dm a b
  | 0x10 => .unimpFive10 sm dm a b
  | 0x11 => .unimpFive11 sm dm a b
  | 0x12 => .unimpFive12 sm dm a b
  | 0x13 => .unimpFive13 sm dm a b
  | 0x14 => .unimpFive14 sm dm a b
  | 0x15 => .unimpFive15 sm dm a b
  | 0x16 => .unimpFive16 sm dm a b
  | 0x17 => .unimpFive17 sm dm a b
  | 0x18 => .unimpFive18 sm dm a b
  | 0x19 => .unimpFive19 sm dm a b
  | 0x1A => .unimpFive1A sm dm a b
  | 0x1B => .unimpFive1B sm dm a b
  | 0x1C => .unimpFive1C sm dm a b
  | 0x1D => .cmpgtG32 sm dm a b
  | 0x1E => .cmphiG32 sm dm a b
  | 0x1F => .cmpeqG32 sm dm a b
  | 0x20 => .subG32 sm dm a b
  | 0x21 => .orG32 sm dm a b
  | 0x22 => .andG32 sm dm a b
  | 0x23 => .addG32 sm dm a b
  | 0x24 => .xorG32 sm dm a b
  | 0x25 => .remG32 sm dm a b
  | 0x26 => .mulG32 sm dm a b
  | 0x27 => .divG32 sm dm a b
  | 0x28 => .unimpFive28 sm dm a b
  | 0x29 => .unimpFive29 sm dm a b
  | 0x2A => .unimpFive2A sm dm a b
  | 0x2B => .unimpFive2B sm dm a b
  | 0x2C => .shrG32 sm dm a b
  | 0x2D => .ushrG32 sm dm a b
  | 0x2E => .shlG32 sm dm a b
  | 0x2F => .udivG32 sm dm a b
  | 0x30 => .sub3G32 sm dm a b
  | 0x31 => .or3G32 sm dm a b
  | 0x32 => .and3G32 sm dm a b
  | 0x33 => .add3G32 sm dm a b
  | 0x34 => .xor3G32 sm dm a b
  | 0x35 => .rem3G32 sm dm a b
  | 0x36 => .mul3G32 sm dm a b
  | 0x37 => .div3G32 sm dm a b
  | 0x38 => .unimpFive38 sm dm a b
  | 0x39 => .unimpFive39 sm dm a b
  | 0x3A => .unimpFive3A sm dm a b
  | 0x3B => .unimpFive3B sm dm a b
  | 0x3C => .shr3G32 sm dm a b
  | 0x3D => .ushr3G32 sm dm a b
  | 0x3E => .shl3G32 sm dm a b
  | _ => .unimpFive3F sm dm a b

/-- An unprefixed instruction at the head of the parcels, and the parcels after it (R164). -/
def decodePlain : List Parcel → Except DecodeError (Instr × List Parcel)
  | [] => .error .noParcel
  | p0 :: rest =>
    if p0.getLsbD 15 then
      if p0.getLsbD 14 then
        match rest with
        | a :: b :: c :: d :: rest => .ok (decodeFive p0 (a ++ b) (c ++ d), rest)
        | _ => .error .truncated
      else
        match rest with
        | a :: b :: rest => .ok (decodeThree p0 a b, rest)
        | _ => .error .truncated
    else
      match decodeOne p0 with
      | some i => .ok (i, rest)
      | none => .error .prefixParcel

/-- The instruction at the head of the parcels, and the parcels after it (R164). A CPU parcel and what follows
it are one instruction (R128). -/
def decodeParcels : List Parcel → Except DecodeError (Instr × List Parcel)
  | [] => .error .noParcel
  | p0 :: rest =>
    if p0 = cpuParcel then
      match rest with
      | [] => .error .truncated
      | p1 :: more =>
        if p1.getLsbD 15 then
          match decodePlain (p1 :: more) with
          | .ok (i, rest) => .ok (.cpuWide i, rest)
          | .error e => .error e
        else .ok (.cpuShort p1, more)
    else decodePlain (p0 :: rest)

/-- Bytes as parcels: the byte at the lower address is the more significant (R120); an odd last byte is left. -/
def parcelsOfBytes : List Byte → List Parcel
  | hi :: lo :: rest => (hi ++ lo) :: parcelsOfBytes rest
  | _ => []

/-- The bytes of parcels, in increasing address order (R120). -/
def bytesOfParcels : List Parcel → List Byte
  | [] => []
  | p :: rest => p.extractLsb' 8 8 :: p.extractLsb' 0 8 :: bytesOfParcels rest

/-- The instruction that a list of bytes begins with. -/
def decodeBytes (bytes : List Byte) : Except DecodeError Instr :=
  match decodeParcels (parcelsOfBytes bytes) with
  | .ok (i, _) => .ok i
  | .error e => .error e

/-- The parcel `k` places after the first of an instruction numbered as the opcode table numbers its bits: bits
15:0 are the first parcel, and the next parcels count on from it. -/
def tableParcel (w k : Nat) : Parcel := BitVec.ofNat 16 (w / 2 ^ (16 * k))

/-- The longest instruction: a CPU prefix and five parcels (R128). -/
def longest : Nat := 6

/-- The parcels of a table word: `nbits` bits of `w`, and zeros above them up to the longest instruction. -/
def tableParcels (nbits w : Nat) : List Parcel :=
  (List.range longest).map (tableParcel (w % 2 ^ nbits))

/-- The instruction the decoder reads from the bits of a row of the opcode table. -/
def decodeTableWord (nbits w : Nat) : Option Instr :=
  match decodeBytes (bytesOfParcels (tableParcels nbits w)) with
  | .ok i => some i
  | .error _ => none

/-- A first parcel: length bits, opcode, source mode, destination mode or subcode (R125, R127). -/
def wideParcel (top : BitVec 2) (op : BitVec 6) (sm dm : BitVec 4) : Parcel := top ++ op ++ sm ++ dm

/-- A one-parcel dyadic (R123). -/
def shortParcel (op : BitVec 5) (s d : BitVec 5) : Parcel := 0#1 ++ op ++ s ++ d

/-- A one-parcel instruction with a ten-bit field (R123). -/
def fieldParcel (op : BitVec 5) (f : BitVec 10) : Parcel := 0#1 ++ op ++ f

/-- A stack instruction: one-parcel opcode 0x02, a subcode and an eight-bit field (R123). -/
def stackParcel (sub : BitVec 2) (f : BitVec 8) : Parcel := 0x02#6 ++ sub ++ f

/-- The two parcels of a 32-bit field, high half first (R125, R127). -/
def fieldParcels (o : BitVec 32) : List Parcel := [o.extractLsb' 16 16, o.extractLsb' 0 16]

/-- A three-parcel dyadic (R125). -/
def encodeThree (op : BitVec 6) (sm dm : BitVec 4) (src dst : BitVec 16) : List Parcel :=
  [wideParcel 2#2 op sm dm, src, dst]

/-- A five-parcel dyadic (R127). -/
def encodeFive (op : BitVec 6) (sm dm : BitVec 4) (src dst : BitVec 32) : List Parcel :=
  wideParcel 3#2 op sm dm :: (fieldParcels src ++ fieldParcels dst)

/-- A three-parcel monadic (R125). -/
def encodeMonadic (sub m : BitVec 4) (o : BitVec 32) : List Parcel :=
  wideParcel 2#2 0#6 m sub :: fieldParcels o

/-- The parcels of an instruction. -/
def encode : Instr → List Parcel
  | .cpuWide inner => cpuParcel :: encode inner
  | .cpuShort next => [cpuParcel, next]
  | .kcallImm10 f => [fieldParcel 0x00#5 f]
  | .callPc10 f => [fieldParcel 0x01#5 f]
  | .enterStk8 f => [stackParcel 0#2 f]
  | .catchStk8 f => [stackParcel 1#2 f]
  | .returnStk8 f => [stackParcel 2#2 f]
  | .popnStk8 f => [stackParcel 3#2 f]
  | .jmpPc10 f => [fieldParcel 0x03#5 f]
  | .jmpfnPc10 f => [fieldParcel 0x04#5 f]
  | .jmpfyPc10 f => [fieldParcel 0x05#5 f]
  | .jmptnPc10 f => [fieldParcel 0x06#5 f]
  | .jmptyPc10 f => [fieldParcel 0x07#5 f]
  | .unimpOne08 x => [fieldParcel 0x08#5 x]
  | .unimpOne09 x => [fieldParcel 0x09#5 x]
  | .movWS s d => [shortParcel 0x0A#5 s d]
  | .kret => [0x2C01#16]
  | .nop => [0x2C02#16]
  | .flushi => [0x2C03#16]
  | .flushp => [0x2C04#16]
  | .cret => [0x2C05#16]
  | .flushd => [0x2C06#16]
  | .testv => [0x2C08#16]
  | .testc => [0x2C09#16]
  | .clre => [0x2C0A#16]
  | .unimpNil007 => [0x2C07#16]
  | .unimpNil00B => [0x2C0B#16]
  | .unimpNil00C x => [0xB03#14 ++ x]
  | .unimpNil010 x => [0x2C1#12 ++ x]
  | .unimpNil020 x => [0x161#11 ++ x]
  | .unimpNil040 x => [0xB1#10 ++ x]
  | .unimpNil080 x => [0x59#9 ++ x]
  | .unimpNil100 x => [0x2D#8 ++ x]
  | .trappedNiladic t => [0x17#7 ++ t]
  | .unimpOne0C x => [fieldParcel 0x0C#5 x]
  | .add3WS s d => [shortParcel 0x0D#5 s d]
  | .and3CS s d => [shortParcel 0x0E#5 s d]
  | .andSS s d => [shortParcel 0x0F#5 s d]
  | .cmpeqCS s d => [shortParcel 0x10#5 s d]
  | .cmpgtSS s d => [shortParcel 0x11#5 s d]
  | .cmpgtCS s d => [shortParcel 0x12#5 s d]
  | .cmpeqSS s d => [shortParcel 0x13#5 s d]
  | .addCS s d => [shortParcel 0x14#5 s d]
  | .add3CS s d => [shortParcel 0x15#5 s d]
  | .addSS s d => [shortParcel 0x16#5 s d]
  | .add3SS s d => [shortParcel 0x17#5 s d]
  | .movSS s d => [shortParcel 0x18#5 s d]
  | .movIS s d => [shortParcel 0x19#5 s d]
  | .movSI s d => [shortParcel 0x1A#5 s d]
  | .movII s d => [shortParcel 0x1B#5 s d]
  | .movCS s d => [shortParcel 0x1C#5 s d]
  | .movaSS s d => [shortParcel 0x1D#5 s d]
  | .shl3CS s d => [shortParcel 0x1E#5 s d]
  | .shr3CS s d => [shortParcel 0x1F#5 s d]
  | .kcallW32 m o => encodeMonadic 0x0#4 m o
  | .callF32 m o => encodeMonadic 0x1#4 m o
  | .returnS32 m o => encodeMonadic 0x2#4 m o
  | .jmpF32 m o => encodeMonadic 0x3#4 m o
  | .jmpfnA32 m o => encodeMonadic 0x4#4 m o
  | .jmpfyA32 m o => encodeMonadic 0x5#4 m o
  | .jmptnA32 m o => encodeMonadic 0x6#4 m o
  | .jmptyA32 m o => encodeMonadic 0x7#4 m o
  | .catchW32 m o => encodeMonadic 0x8#4 m o
  | .enterW32 m o => encodeMonadic 0x9#4 m o
  | .ldraaF32 m o => encodeMonadic 0xA#4 m o
  | .flushpteW32 m o => encodeMonadic 0xB#4 m o
  | .flushpbeW32 m o => encodeMonadic 0xC#4 m o
  | .flushdceW32 m o => encodeMonadic 0xD#4 m o
  | .unimpMonE m o => encodeMonadic 0xE#4 m o
  | .popnS32 m o => encodeMonadic 0xF#4 m o
  | .unimpFive00 sm dm src dst => encodeFive 0x00#6 sm dm src dst
  | .oriG16 sm dm src dst => encodeThree 0x01#6 sm dm src dst
  | .oriG32 sm dm src dst => encodeFive 0x01#6 sm dm src dst
  | .andiG16 sm dm src dst => encodeThree 0x02#6 sm dm src dst
  | .andiG32 sm dm src dst => encodeFive 0x02#6 sm dm src dst
  | .addiG16 sm dm src dst => encodeThree 0x03#6 sm dm src dst
  | .addiG32 sm dm src dst => encodeFive 0x03#6 sm dm src dst
  | .movaG16 sm dm src dst => encodeThree 0x04#6 sm dm src dst
  | .movaG32 sm dm src dst => encodeFive 0x04#6 sm dm src dst
  | .uremG16 sm dm src dst => encodeThree 0x05#6 sm dm src dst
  | .uremG32 sm dm src dst => encodeFive 0x05#6 sm dm src dst
  | .movG16 sm dm src dst => encodeThree 0x06#6 sm dm src dst
  | .movG32 sm dm src dst => encodeFive 0x06#6 sm dm src dst
  | .dqmG16 sm dm src dst => encodeThree 0x07#6 sm dm src dst
  | .dqmG32 sm dm src dst => encodeFive 0x07#6 sm dm src dst
  | .unimpThree08 sm dm src dst => encodeThree 0x08#6 sm dm src dst
  | .unimpFive08 sm dm src dst => encodeFive 0x08#6 sm dm src dst
  | .unimpThree09 sm dm src dst => encodeThree 0x09#6 sm dm src dst
  | .unimpFive09 sm dm src dst => encodeFive 0x09#6 sm dm src dst
  | .unimpThree0A sm dm src dst => encodeThree 0x0A#6 sm dm src dst
  | .unimpFive0A sm dm src dst => encodeFive 0x0A#6 sm dm src dst
  | .unimpThree0B sm dm src dst => encodeThree 0x0B#6 sm dm src dst
  | .unimpFive0B sm dm src dst => encodeFive 0x0B#6 sm dm src dst
  | .taddG16 sm dm src dst => encodeThree 0x0C#6 sm dm src dst
  | .taddG32 sm dm src dst => encodeFive 0x0C#6 sm dm src dst
  | .tsubG16 sm dm src dst => encodeThree 0x0D#6 sm dm src dst
  | .tsubG32 sm dm src dst => encodeFive 0x0D#6 sm dm src dst
  | .unimpThree0E sm dm src dst => encodeThree 0x0E#6 sm dm src dst
  | .unimpFive0E sm dm src dst => encodeFive 0x0E#6 sm dm src dst
  | .unimpThree0F sm dm src dst => encodeThree 0x0F#6 sm dm src dst
  | .unimpFive0F sm dm src dst => encodeFive 0x0F#6 sm dm src dst
  | .unimpThree10 sm dm src dst => encodeThree 0x10#6 sm dm src dst
  | .unimpFive10 sm dm src dst => encodeFive 0x10#6 sm dm src dst
  | .unimpThree11 sm dm src dst => encodeThree 0x11#6 sm dm src dst
  | .unimpFive11 sm dm src dst => encodeFive 0x11#6 sm dm src dst
  | .unimpThree12 sm dm src dst => encodeThree 0x12#6 sm dm src dst
  | .unimpFive12 sm dm src dst => encodeFive 0x12#6 sm dm src dst
  | .unimpThree13 sm dm src dst => encodeThree 0x13#6 sm dm src dst
  | .unimpFive13 sm dm src dst => encodeFive 0x13#6 sm dm src dst
  | .unimpThree14 sm dm src dst => encodeThree 0x14#6 sm dm src dst
  | .unimpFive14 sm dm src dst => encodeFive 0x14#6 sm dm src dst
  | .unimpThree15 sm dm src dst => encodeThree 0x15#6 sm dm src dst
  | .unimpFive15 sm dm src dst => encodeFive 0x15#6 sm dm src dst
  | .unimpThree16 sm dm src dst => encodeThree 0x16#6 sm dm src dst
  | .unimpFive16 sm dm src dst => encodeFive 0x16#6 sm dm src dst
  | .unimpThree17 sm dm src dst => encodeThree 0x17#6 sm dm src dst
  | .unimpFive17 sm dm src dst => encodeFive 0x17#6 sm dm src dst
  | .unimpThree18 sm dm src dst => encodeThree 0x18#6 sm dm src dst
  | .unimpFive18 sm dm src dst => encodeFive 0x18#6 sm dm src dst
  | .unimpThree19 sm dm src dst => encodeThree 0x19#6 sm dm src dst
  | .unimpFive19 sm dm src dst => encodeFive 0x19#6 sm dm src dst
  | .unimpThree1A sm dm src dst => encodeThree 0x1A#6 sm dm src dst
  | .unimpFive1A sm dm src dst => encodeFive 0x1A#6 sm dm src dst
  | .unimpThree1B sm dm src dst => encodeThree 0x1B#6 sm dm src dst
  | .unimpFive1B sm dm src dst => encodeFive 0x1B#6 sm dm src dst
  | .unimpThree1C sm dm src dst => encodeThree 0x1C#6 sm dm src dst
  | .unimpFive1C sm dm src dst => encodeFive 0x1C#6 sm dm src dst
  | .cmpgtG16 sm dm src dst => encodeThree 0x1D#6 sm dm src dst
  | .cmpgtG32 sm dm src dst => encodeFive 0x1D#6 sm dm src dst
  | .cmphiG16 sm dm src dst => encodeThree 0x1E#6 sm dm src dst
  | .cmphiG32 sm dm src dst => encodeFive 0x1E#6 sm dm src dst
  | .cmpeqG16 sm dm src dst => encodeThree 0x1F#6 sm dm src dst
  | .cmpeqG32 sm dm src dst => encodeFive 0x1F#6 sm dm src dst
  | .subG16 sm dm src dst => encodeThree 0x20#6 sm dm src dst
  | .subG32 sm dm src dst => encodeFive 0x20#6 sm dm src dst
  | .orG16 sm dm src dst => encodeThree 0x21#6 sm dm src dst
  | .orG32 sm dm src dst => encodeFive 0x21#6 sm dm src dst
  | .andG16 sm dm src dst => encodeThree 0x22#6 sm dm src dst
  | .andG32 sm dm src dst => encodeFive 0x22#6 sm dm src dst
  | .addG16 sm dm src dst => encodeThree 0x23#6 sm dm src dst
  | .addG32 sm dm src dst => encodeFive 0x23#6 sm dm src dst
  | .xorG16 sm dm src dst => encodeThree 0x24#6 sm dm src dst
  | .xorG32 sm dm src dst => encodeFive 0x24#6 sm dm src dst
  | .remG16 sm dm src dst => encodeThree 0x25#6 sm dm src dst
  | .remG32 sm dm src dst => encodeFive 0x25#6 sm dm src dst
  | .mulG16 sm dm src dst => encodeThree 0x26#6 sm dm src dst
  | .mulG32 sm dm src dst => encodeFive 0x26#6 sm dm src dst
  | .divG16 sm dm src dst => encodeThree 0x27#6 sm dm src dst
  | .divG32 sm dm src dst => encodeFive 0x27#6 sm dm src dst
  | .unimpThree28 sm dm src dst => encodeThree 0x28#6 sm dm src dst
  | .unimpFive28 sm dm src dst => encodeFive 0x28#6 sm dm src dst
  | .unimpThree29 sm dm src dst => encodeThree 0x29#6 sm dm src dst
  | .unimpFive29 sm dm src dst => encodeFive 0x29#6 sm dm src dst
  | .unimpThree2A sm dm src dst => encodeThree 0x2A#6 sm dm src dst
  | .unimpFive2A sm dm src dst => encodeFive 0x2A#6 sm dm src dst
  | .unimpThree2B sm dm src dst => encodeThree 0x2B#6 sm dm src dst
  | .unimpFive2B sm dm src dst => encodeFive 0x2B#6 sm dm src dst
  | .shrG16 sm dm src dst => encodeThree 0x2C#6 sm dm src dst
  | .shrG32 sm dm src dst => encodeFive 0x2C#6 sm dm src dst
  | .ushrG16 sm dm src dst => encodeThree 0x2D#6 sm dm src dst
  | .ushrG32 sm dm src dst => encodeFive 0x2D#6 sm dm src dst
  | .shlG16 sm dm src dst => encodeThree 0x2E#6 sm dm src dst
  | .shlG32 sm dm src dst => encodeFive 0x2E#6 sm dm src dst
  | .udivG16 sm dm src dst => encodeThree 0x2F#6 sm dm src dst
  | .udivG32 sm dm src dst => encodeFive 0x2F#6 sm dm src dst
  | .sub3G16 sm dm src dst => encodeThree 0x30#6 sm dm src dst
  | .sub3G32 sm dm src dst => encodeFive 0x30#6 sm dm src dst
  | .or3G16 sm dm src dst => encodeThree 0x31#6 sm dm src dst
  | .or3G32 sm dm src dst => encodeFive 0x31#6 sm dm src dst
  | .and3G16 sm dm src dst => encodeThree 0x32#6 sm dm src dst
  | .and3G32 sm dm src dst => encodeFive 0x32#6 sm dm src dst
  | .add3G16 sm dm src dst => encodeThree 0x33#6 sm dm src dst
  | .add3G32 sm dm src dst => encodeFive 0x33#6 sm dm src dst
  | .xor3G16 sm dm src dst => encodeThree 0x34#6 sm dm src dst
  | .xor3G32 sm dm src dst => encodeFive 0x34#6 sm dm src dst
  | .rem3G16 sm dm src dst => encodeThree 0x35#6 sm dm src dst
  | .rem3G32 sm dm src dst => encodeFive 0x35#6 sm dm src dst
  | .mul3G16 sm dm src dst => encodeThree 0x36#6 sm dm src dst
  | .mul3G32 sm dm src dst => encodeFive 0x36#6 sm dm src dst
  | .div3G16 sm dm src dst => encodeThree 0x37#6 sm dm src dst
  | .div3G32 sm dm src dst => encodeFive 0x37#6 sm dm src dst
  | .unimpThree38 sm dm src dst => encodeThree 0x38#6 sm dm src dst
  | .unimpFive38 sm dm src dst => encodeFive 0x38#6 sm dm src dst
  | .unimpThree39 sm dm src dst => encodeThree 0x39#6 sm dm src dst
  | .unimpFive39 sm dm src dst => encodeFive 0x39#6 sm dm src dst
  | .unimpThree3A sm dm src dst => encodeThree 0x3A#6 sm dm src dst
  | .unimpFive3A sm dm src dst => encodeFive 0x3A#6 sm dm src dst
  | .unimpThree3B sm dm src dst => encodeThree 0x3B#6 sm dm src dst
  | .unimpFive3B sm dm src dst => encodeFive 0x3B#6 sm dm src dst
  | .shr3G16 sm dm src dst => encodeThree 0x3C#6 sm dm src dst
  | .shr3G32 sm dm src dst => encodeFive 0x3C#6 sm dm src dst
  | .ushr3G16 sm dm src dst => encodeThree 0x3D#6 sm dm src dst
  | .ushr3G32 sm dm src dst => encodeFive 0x3D#6 sm dm src dst
  | .shl3G16 sm dm src dst => encodeThree 0x3E#6 sm dm src dst
  | .shl3G32 sm dm src dst => encodeFive 0x3E#6 sm dm src dst
  | .unimpThree3F sm dm src dst => encodeThree 0x3F#6 sm dm src dst
  | .unimpFive3F sm dm src dst => encodeFive 0x3F#6 sm dm src dst

end Sys2Proof
end

