-- ==== Sys2Proof/Machine/State.lean ====
section
/-! DEFINITION. The state of the machine: every piece of state of spec/10_state.md R10, R44 (listed with its rule and
reset value in INVENTORY.md), the reasons a step can stop, and the machine right after reset. -/

namespace Sys2Proof.Machine

/-- Why the machine stops with no further step. -/
inductive Fault where
  /-- A bus access that is never answered, and that no HRESET ends (93_implementation_defined.md U14): the processor waits
  for ever. Raised by any access that `busMap` or its input leaves without an answer. Safe: the spec says no further
  instruction completes. Log 10. -/
  | busNeverAnswers
  deriving DecidableEq, Repr

/-- Why an instruction has no meaning in this model. -/
inductive Refusal where
  /-- An instruction whose meaning is not written yet, by its mnemonic. Raised by the dispatch only. Safe. -/
  | notModelled (mnemonic : String)
  /-- A CPU parcel before a one-parcel instruction (93_implementation_defined.md U6). Raised by `cpuShort`. Safe. Log
  30. -/
  | cpuBeforeOneParcel
  /-- ENTER or CATCH on SP begun with MSP < SP (44_program_control.md R266, R263: "instruction operation depends upon
  context and, therefore, is unpredictable"; U2). Safe. Log 26. -/
  | stackCacheUnpredictable
  /-- The three-parcel ENTER in stack offset mode with an offset of at most 256 in magnitude (U8). Safe. Log 32. -/
  | enterOffsetTooSmall
  /-- An instruction that names two registers as sources (10_state.md R42, U12). Safe. Log 33. -/
  | twoRegistersRead
  /-- Bytes that are not an instruction. The step never answers so, since it fetches as many parcels as the first
  parcel asks for. Safe. -/
  | undecodable
  deriving DecidableEq, Repr

/-- A cached page table entry (20_memory.md R94): the virtual page number and the entry as last read or written. -/
structure TlbEntry where
  page : BitVec 20
  pte  : Word
  deriving DecidableEq, Repr

/-- A nonpaged segment register (20_memory.md R94): the virtual segment number and the segment table entry. -/
structure Npsr where
  seg : BitVec 10
  ste : Word
  deriving DecidableEq, Repr

/-- An earlier value of the text parcel at a physical address (20_memory.md R109). -/
structure StaleParcel where
  addr  : Word
  value : Parcel
  deriving DecidableEq, Repr

/-- A text translation under which the instruction cache may have been filled since it was last flushed
(20_memory.md R97, R109): a virtual page and the physical page it was at. -/
structure TextMap where
  page  : BitVec 20
  frame : BitVec 20
  deriving DecidableEq, Repr

/-- A byte or half-word destination whose 32-bit result did not fit it (70_reset_and_hazards.md R443). -/
structure Subword where
  addr  : Word
  size  : Nat
  value : Word
  deriving DecidableEq, Repr

/-- SHAD before and after an instruction that moved it (70_reset_and_hazards.md R444). -/
structure ShadMove where
  before : Word
  made   : Word
  deriving DecidableEq, Repr

/-- What the two instructions after this one may still see as it was (70_reset_and_hazards.md R441 to R447). -/
structure Recent where
  /-- The PSW flags the instruction wrote. -/
  flags      : Word
  /-- The PSW before it. -/
  pswBefore  : Word
  /-- The sub-word result it truncated. -/
  subword    : Option Subword
  /-- How it moved SHAD, if it was ENTER, RETURN or POPN. -/
  shadMove   : Option ShadMove
  /-- The data-TLB entries it invalidated. -/
  lostTlb    : List TlbEntry
  /-- The data NPSR it invalidated. -/
  lostNpsr   : Option Npsr
  deriving DecidableEq, Repr

/-- How the last step's instruction ended (60_exceptions.md R397, R402). -/
inductive Ended where
  /-- It completed. -/
  | completed
  /-- The unimplemented or trapped-niladic sequence took its place. -/
  | emulated
  /-- An event sequence or a reset took its place. -/
  | event
  deriving DecidableEq, Repr

/-- How the platform answers an access (60_exceptions.md R411; P_PHYSICAL_MAP, 20_memory.md R73). -/
inductive Answer where
  | ram
  | busError
  | silent
  deriving DecidableEq, Repr

/-- A range of words of physical memory and how it answers: the words that hold the bytes `first` and `last`, and those
between, since the bus addresses words (60_exceptions.md R411's HA[31:2]). -/
structure BusRegion where
  first  : Nat
  last   : Nat
  answer : Answer
  deriving DecidableEq, Repr

/-- The inputs of one bus transaction (00_scope.md R9, 60_exceptions.md R411): what other bus masters write before it,
how it is answered (`none`: as `busMap` says), and whether HRESET ends it before it is answered. -/
structure BusTurn where
  writes : List Host.Cell
  answer : Option Answer
  hreset : Bool
  deriving DecidableEq, Repr

/-- The inputs of one step (00_scope.md R9): the recognised IL[2:0] and HRESET at its boundary, what other bus masters
have written by then, and the inputs of its bus transactions in their order. -/
structure Pins where
  il     : BitVec 3
  hreset : Bool
  writes : List Host.Cell
  turns  : List BusTurn
  deriving DecidableEq, Repr

/-- The machine's state. INVENTORY.md gives each field's rule. -/
structure State where
  /-- Program counter (R16). -/
  pc : Word
  /-- Program status word (R25). -/
  psw : Word
  /-- Configuration register (R30). -/
  config : Word
  /-- Interrupt stack pointer (R33). -/
  isp : Word
  /-- Maximum stack pointer (R34). -/
  msp : Word
  /-- Stack pointer (R35). -/
  sp : Word
  /-- Shadow register (R37). -/
  shad : Word
  /-- Vector base (R41). -/
  vb : Word
  /-- Segment table base (R38). -/
  stb : Word
  /-- Fault register (R32). -/
  fault : Word
  /-- Timer1 (R39). -/
  timer1 : Word
  /-- Timer2 (R40). -/
  timer2 : Word
  /-- The stack cache's 64 words (R11): cell `i` holds the addresses `a` with `a[7:2] = i`. -/
  cache : Vector Word 64
  /-- Physical memory (20_memory.md R61), in the canonical form of `Memory.wf`. -/
  mem : List Host.Cell
  /-- Text TLB (20_memory.md R94). -/
  textTlb : List TlbEntry
  /-- Data TLB. -/
  dataTlb : List TlbEntry
  /-- Text nonpaged segment register. -/
  textNpsr : Option Npsr
  /-- Data nonpaged segment register. -/
  dataNpsr : Option Npsr
  /-- What the prefetch buffer may supply besides memory (R109, log 18). -/
  pfbStale : List StaleParcel
  /-- What the decoded instruction cache may supply besides memory (R109, log 18). -/
  icStale : List StaleParcel
  /-- The text translations under which it may have been filled since its last flush (R97, log 18). -/
  textMaps : List TextMap
  /-- The physical quad words of cacheable text the prefetch buffer may hold (R88, R89, R110, log 18). -/
  pfbQuads : List Word
  /-- The address of the text the prefetch unit goes on with; none while it waits for a demand fetch (R108, log 19). -/
  ahead : Option Word
  /-- Timer1's overflow request (60_exceptions.md R356). -/
  t1Pending : Bool
  /-- Timer2's overflow request (R356). -/
  t2Pending : Bool
  /-- The NMI edge latch (R354). -/
  nmiArmed : Bool
  /-- A trace exception is due (R402, R403). -/
  tracePending : Bool
  /-- Stores answered with BERR and not reported yet (R376, log 11). -/
  writeFaults : Nat
  /-- The CONFIG bits in effect (70_reset_and_hazards.md R446, log 20). -/
  configEff : Word
  /-- The addressing mode in effect (R28, log 21). -/
  vpEff : Bool
  /-- The last instructions' hazard records, the latest first, at most two (70_reset_and_hazards.md R440). -/
  recent : List Recent
  /-- How the last instruction ended (the model's own, log 59). -/
  ended : Ended
  /-- A branch at `pc` may be folded into the last instruction (70_reset_and_hazards.md R458, log 41). -/
  foldable : Bool
  /-- The next free value's index (the model's own, log 59). -/
  free : Nat
  /-- The platform's physical map (the model's own, log 9). -/
  busMap : List BusRegion
  /-- The inputs of the steps to come (the model's own, log 12). -/
  pins : List Pins
  /-- The inputs of this step's bus transactions to come (the model's own, log 12). -/
  turns : List BusTurn
  deriving DecidableEq, Repr

/-- The state with `pc` replaced. -/
def State.setPc (s : State) (v : Word) : State := { s with pc := v }

/-- The state with `psw` replaced. -/
def State.setPsw (s : State) (v : Word) : State := { s with psw := v }

/-- The state with `config` replaced. -/
def State.setConfig (s : State) (v : Word) : State := { s with config := v }

/-- The state with `isp` replaced. -/
def State.setIsp (s : State) (v : Word) : State := { s with isp := v }

/-- The state with `msp` replaced. -/
def State.setMsp (s : State) (v : Word) : State := { s with msp := v }

/-- The state with `sp` replaced. -/
def State.setSp (s : State) (v : Word) : State := { s with sp := v }

/-- The state with `shad` replaced. -/
def State.setShad (s : State) (v : Word) : State := { s with shad := v }

/-- The state with `vb` replaced. -/
def State.setVb (s : State) (v : Word) : State := { s with vb := v }

/-- The state with `stb` replaced. -/
def State.setStb (s : State) (v : Word) : State := { s with stb := v }

/-- The state with `fault` replaced. -/
def State.setFault (s : State) (v : Word) : State := { s with fault := v }

/-- The state with `timer1` replaced. -/
def State.setTimer1 (s : State) (v : Word) : State := { s with timer1 := v }

/-- The state with `timer2` replaced. -/
def State.setTimer2 (s : State) (v : Word) : State := { s with timer2 := v }

/-- The state with `cache` replaced. -/
def State.setCache (s : State) (v : Vector Word 64) : State := { s with cache := v }

/-- The state with `mem` replaced. -/
def State.setMem (s : State) (v : List Host.Cell) : State := { s with mem := v }

/-- The state with `textTlb` replaced. -/
def State.setTextTlb (s : State) (v : List TlbEntry) : State := { s with textTlb := v }

/-- The state with `dataTlb` replaced. -/
def State.setDataTlb (s : State) (v : List TlbEntry) : State := { s with dataTlb := v }

/-- The state with `textNpsr` replaced. -/
def State.setTextNpsr (s : State) (v : Option Npsr) : State := { s with textNpsr := v }

/-- The state with `dataNpsr` replaced. -/
def State.setDataNpsr (s : State) (v : Option Npsr) : State := { s with dataNpsr := v }

/-- The state with `pfbStale` replaced. -/
def State.setPfbStale (s : State) (v : List StaleParcel) : State := { s with pfbStale := v }

/-- The state with `icStale` replaced. -/
def State.setIcStale (s : State) (v : List StaleParcel) : State := { s with icStale := v }

/-- The state with `textMaps` replaced. -/
def State.setTextMaps (s : State) (v : List TextMap) : State := { s with textMaps := v }

/-- The state with `pfbQuads` replaced. -/
def State.setPfbQuads (s : State) (v : List Word) : State := { s with pfbQuads := v }

/-- The state with `ahead` replaced. -/
def State.setAhead (s : State) (v : Option Word) : State := { s with ahead := v }

/-- The state with `t1Pending` replaced. -/
def State.setT1Pending (s : State) (v : Bool) : State := { s with t1Pending := v }

/-- The state with `t2Pending` replaced. -/
def State.setT2Pending (s : State) (v : Bool) : State := { s with t2Pending := v }

/-- The state with `nmiArmed` replaced. -/
def State.setNmiArmed (s : State) (v : Bool) : State := { s with nmiArmed := v }

/-- The state with `tracePending` replaced. -/
def State.setTracePending (s : State) (v : Bool) : State := { s with tracePending := v }

/-- The state with `writeFaults` replaced. -/
def State.setWriteFaults (s : State) (v : Nat) : State := { s with writeFaults := v }

/-- The state with `configEff` replaced. -/
def State.setConfigEff (s : State) (v : Word) : State := { s with configEff := v }

/-- The state with `vpEff` replaced. -/
def State.setVpEff (s : State) (v : Bool) : State := { s with vpEff := v }

/-- The state with `recent` replaced. -/
def State.setRecent (s : State) (v : List Recent) : State := { s with recent := v }

/-- The state with `ended` replaced. -/
def State.setEnded (s : State) (v : Ended) : State := { s with ended := v }

/-- The state with `foldable` replaced. -/
def State.setFoldable (s : State) (v : Bool) : State := { s with foldable := v }

/-- The state with `free` replaced. -/
def State.setFree (s : State) (v : Nat) : State := { s with free := v }

/-- The state with `busMap` replaced. -/
def State.setBusMap (s : State) (v : List BusRegion) : State := { s with busMap := v }

/-- The state with `pins` replaced. -/
def State.setPins (s : State) (v : List Pins) : State := { s with pins := v }

/-- The state with `turns` replaced. -/
def State.setTurns (s : State) (v : List BusTurn) : State := { s with turns := v }

/-- The machine right after an external reset (10_state.md R46, 70_reset_and_hazards.md R420). The spec gives PC, PSW,
CONFIG, SHAD, the TLBs, the NPSRs, the text caches and the hidden bits; the other values are DESIGN CHOICE (logs 4, 5,
9, 12, 59). -/
def State.reset : State where
  pc := 0#32
  psw := 0#32
  config := 0#32
  isp := 0#32
  msp := 0#32
  sp := 0#32
  shad := 0#32
  vb := 0#32
  stb := 0#32
  fault := 0#32
  timer1 := 0#32
  timer2 := 0#32
  cache := Vector.replicate 64 0#32
  mem := []
  textTlb := []
  dataTlb := []
  textNpsr := none
  dataNpsr := none
  pfbStale := []
  icStale := []
  textMaps := []
  pfbQuads := []
  ahead := none
  t1Pending := false
  t2Pending := false
  nmiArmed := true
  tracePending := false
  writeFaults := 0
  configEff := 0#32
  vpEff := false
  recent := []
  ended := .event
  foldable := false
  free := 0
  busMap := []
  pins := []
  turns := []

end Sys2Proof.Machine
end

