-- ==== Sys2Proof/Machine/Res.lean ====
section
/-! DEFINITION. The outcome of a part of an instruction, how parts follow one another, and how free values are drawn. -/

namespace Sys2Proof.Machine

/-- An event raised inside an instruction or a sequence: the exceptions of 60_exceptions.md R372, the internally caused
reset of R379, and HRESET ending a bus transaction (R411). -/
inductive Trap where
  | zeroDivide
  | trace
  | illegalInstruction
  | alignmentFault
  | privilegeViolation
  | unimplementedRegister
  | fetchFault
  | dataReadFault (va : Word)
  | dataWriteFault (va : Word)
  | ioBusFault
  | tableWalkBusFault
  | internalReset
  | externalReset
  deriving DecidableEq, Repr

/-- A part of an instruction: it yields a value and a state, raises an event (the state holds what persists, R371),
stops the machine, or has no meaning. -/
inductive Res (α : Type) where
  | ok (a : α) (s : State)
  | trap (t : Trap) (s : State)
  | halt (f : Fault)
  | refuse (r : Refusal)
  deriving Repr

/-- One part after another: what is not `ok` ends the instruction. -/
def Res.bind {α β : Type} (r : Res α) (f : α → State → Res β) : Res β :=
  match r with
  | .ok a s => f a s
  | .trap t s => .trap t s
  | .halt e => .halt e
  | .refuse e => .refuse e

/-- Raise `t` when `c` holds. -/
def raiseIf (c : Bool) (t : Trap) (s : State) : Res Unit := if c then .trap t s else .ok () s

/-- The next free word (log 59). -/
def drawWord (s : State) : Word × State := (Config.freeWord s.free, s.setFree (s.free + 1))

/-- The next free bit. -/
def drawBit (s : State) : Bool × State := ((Config.freeWord s.free).getLsbD 0, s.setFree (s.free + 1))

/-- A free bit where `c` holds, else false. -/
def drawIf (c : Bool) (s : State) : Bool × State := if c then drawBit s else (false, s)

/-- The next free number below `n` (0 when `n` is 0). -/
def drawBelow (n : Nat) (s : State) : Nat × State :=
  ((Config.freeWord s.free).toNat % n, s.setFree (s.free + 1))

/-- A free sublist: each element stays or goes by a free bit. -/
def drawSublist {α : Type} : List α → State → List α × State
  | [], s => ([], s)
  | x :: xs, s =>
    let (b, s) := drawBit s
    let (ys, s) := drawSublist xs s
    (if b then x :: ys else ys, s)

/-- One of the two words, bit by bit, on the bits of `mask`; no draw when they agree there. -/
def drawMix (mask a b : Word) (s : State) : Word × State :=
  if a &&& mask = b &&& mask then (a, s)
  else let (w, s) := drawWord s; (mergeBits (mask &&& w) a b, s)

end Sys2Proof.Machine
end

