-- ==== Sys2Proof/Machine/Memory.lean ====
section
/-! DEFINITION. Physical memory: a list of (address, byte) cells in one canonical form (addresses strictly rising, no
byte equal to what an unlisted address reads as), its bytes and words (spec/20_memory.md R61), and the bus that answers
an access (R73, R106). -/

namespace Sys2Proof.Machine

/-- Physical memory. -/
abbrev Memory := List Host.Cell

/-- What an address no entry lists reads as (DESIGN CHOICE 0, log 5: the spec gives memory no reset contents). -/
def unlistedByte : Byte := 0#8

/-- The byte at an address. -/
def Memory.read (m : Memory) (a : Nat) : Byte :=
  match m with
  | [] => unlistedByte
  | c :: rest => if c.1 = a then c.2 else Memory.read rest a

/-- The cells without those at `a`. -/
def Memory.erase (m : Memory) (a : Nat) : Memory :=
  match m with
  | [] => []
  | c :: rest => if c.1 = a then Memory.erase rest a else c :: Memory.erase rest a

/-- The cells with `(a, b)` put before the first of a higher address. -/
def Memory.insert (m : Memory) (a : Nat) (b : Byte) : Memory :=
  match m with
  | [] => [(a, b)]
  | c :: rest => if a < c.1 then (a, b) :: c :: rest else c :: Memory.insert rest a b

/-- Memory after a byte is written: writing what an unlisted address reads as removes the entry. -/
def Memory.write (m : Memory) (a : Nat) (b : Byte) : Memory :=
  if b = unlistedByte then m.erase a else (m.erase a).insert a b

/-- Every address of the cells is above `lo`, rising, below 2^32, and no byte is the unlisted one. -/
def Memory.wfFrom (lo : Nat) (m : Memory) : Bool :=
  match m with
  | [] => true
  | c :: rest => decide (lo ≤ c.1) && decide (c.1 < 4294967296) && decide (c.2 ≠ unlistedByte)
      && Memory.wfFrom (c.1 + 1) rest

/-- The canonical form. -/
def Memory.wf (m : Memory) : Bool := m.wfFrom 0

/-- The address `k` bytes above `a`, modulo 2^32, as a cell's key. -/
def byteKey (a : Word) (k : Nat) : Nat := (a + BitVec.ofNat 32 k).toNat

/-- The `n` bytes from `a` up as a number, the byte at `a` the most significant (R61). -/
def Memory.readBE (m : Memory) (a : Word) (n : Nat) : Word :=
  match n with
  | 0 => 0#32
  | k + 1 => (m.readBE a k <<< 8) ||| (m.read (byteKey a k)).setWidth 32

/-- Memory with the low `n` bytes of `v` at `a` and up, the most significant at `a` (R61). -/
def Memory.writeBE (m : Memory) (a : Word) (n : Nat) (v : Word) : Memory :=
  match n with
  | 0 => m
  | k + 1 => (m.writeBE a k (v >>> 8)).write (byteKey a k) (v.setWidth 8)

/-- Where the `n` bytes of an access at `a` lie in the big-endian bytes of its word, for the byte order in force
(R60, R61): in little-endian order a byte is at `a XOR 3`, a half-word at `a XOR 2`. -/
def laneAddr (little : Bool) (n : Nat) (a : Word) : Word :=
  if little then a ^^^ (if n = 1 then 3#32 else if n = 2 then 2#32 else 0#32) else a

/-- How far the `n` bytes at lane address `a` lie above bit 0 of their word. -/
def laneShift (n : Nat) (a : Word) : Nat := 8 * (4 - n - a.toNat % 4)

/-- The bits of `n` bytes. -/
def bytesMask (n : Nat) : Word := if n = 1 then 0xFF#32 else if n = 2 then 0xFFFF#32 else 0xFFFFFFFF#32

/-- The `n` bytes of the word `w` at lane address `a` (R61). -/
def laneGet (n : Nat) (a w : Word) : Word := (w >>> laneShift n a) &&& bytesMask n

/-- The word `w` with the low `n` bytes of `v` at lane address `a`, its other lanes kept (R63). -/
def lanePut (n : Nat) (a w v : Word) : Word :=
  mergeBits (bytesMask n <<< laneShift n a) w (v <<< laneShift n a)

/-- Whether a region holds the word of a physical address. -/
def BusRegion.holds (r : BusRegion) (pa : Word) : Bool :=
  decide (r.first / 4 ≤ pa.toNat / 4) && decide (pa.toNat / 4 ≤ r.last / 4)

/-- How the platform answers at a physical address: by the first region that holds its word, and as RAM where none does
(P_PHYSICAL_MAP, R73; log 9). -/
def busAnswer (regions : List BusRegion) (pa : Word) : Answer :=
  match regions with
  | [] => .ram
  | r :: rest => if r.holds pa then r.answer else busAnswer rest pa

/-- The list with `x` in front, unless it is there. -/
def addNew {α : Type} [DecidableEq α] (x : α) (xs : List α) : List α := if x ∈ xs then xs else x :: xs

/-- The parcel at an even physical address (R71). -/
def Memory.parcel (m : Memory) (a : Word) : Parcel := m.read (byteKey a 0) ++ m.read (byteKey a 1)

/-- The state that remembers the two parcels of the word at `pa`, about to change: the instruction cache may go on
supplying them, and the prefetch buffer where it may hold their quad word (R109, R110). -/
def noteStale (pa : Word) (s : State) : State :=
  let a := wordAlign pa
  let p0 : StaleParcel := ⟨a, Memory.parcel s.mem a⟩
  let p1 : StaleParcel := ⟨a + 2#32, Memory.parcel s.mem (a + 2#32)⟩
  let pfb := if quadAlign pa ∈ s.pfbQuads then addNew p0 (addNew p1 s.pfbStale) else s.pfbStale
  (s.setPfbStale pfb).setIcStale (addNew p0 (addNew p1 s.icStale))

/-- Store the low `n` bytes of `v` at the physical lane address `pa` (R63, R90's PhysWrite). -/
def physStore (pa : Word) (n : Nat) (v : Word) (s : State) : State :=
  let s := noteStale pa s
  s.setMem (Memory.writeBE s.mem pa n v)

/-- The bytes other bus masters have written (R104), in order; a write where no RAM answers has no effect here. -/
def otherMasters (writes : List Host.Cell) (s : State) : State :=
  match writes with
  | [] => s
  | c :: rest =>
    let pa : Word := BitVec.ofNat 32 c.1
    otherMasters rest (if busAnswer s.busMap pa = .ram then physStore pa 1 (c.2.setWidth 32) s else s)

/-- One bus transaction (00_scope.md R9, 60_exceptions.md R411): what other masters write before it, unless the bus is
locked or a block is under way, then its answer: the input's, and as the platform answers where there is none; `none`
where HRESET ends it. -/
def busTurn (locked : Bool) (pa : Word) (s : State) : Option Answer × State :=
  match s.turns with
  | [] => (some (busAnswer s.busMap pa), s)
  | t :: rest =>
    let s := s.setTurns rest
    (if t.hreset then none else some (t.answer.getD (busAnswer s.busMap pa)),
      if locked then s else otherMasters t.writes s)

/-- The word at a physical address (R90's PhysRead), a bus error raising `err` (R106). -/
def physRead (locked : Bool) (err : Trap) (pa : Word) (s : State) : Res Word :=
  let (a, s) := busTurn locked pa s
  match a with
  | some .ram => .ok (Memory.readBE s.mem (wordAlign pa) 4) s
  | some .busError => .trap err s
  | some .silent => .halt .busNeverAnswers
  | none => .trap .externalReset s

end Sys2Proof.Machine
end

