-- ==== Sys2Proof/Machine/Translate.lean ====
section
/-! DEFINITION. Address translation (spec/20_memory.md R85 to R98): the two TLBs and nonpaged segment registers, the
table walk, protection, and what forgets a translation. -/

namespace Sys2Proof.Machine

/-- What a translated access is for (R90). -/
inductive Kind where
  | text
  | read
  | write
  deriving DecidableEq, Repr

/-- The fault of a failed translation (R90, R91). -/
def Kind.fault (k : Kind) (va : Word) : Trap :=
  match k with
  | .text => .fetchFault
  | .read => .dataReadFault va
  | .write => .dataWriteFault va

/-- The segment number (R86). -/
def segmentOf (va : Word) : BitVec 10 := va.extractLsb' 22 10

/-- The virtual page number: the segment and page numbers together (R86). -/
def pageOf (va : Word) : BitVec 20 := va.extractLsb' 12 20

/-- The address of the segment table entry of `va` (R86). -/
def steAddr (stb va : Word) : Word :=
  (stb.extractLsb' 12 20 : BitVec 20) ++ segmentOf va ++ 0#2

/-- The address of the page table entry of `va` (R89). -/
def pteAddr (ste va : Word) : Word :=
  (ste.extractLsb' 12 20 : BitVec 20) ++ (va.extractLsb' 12 10 : BitVec 10) ++ 0#2

/-- Valid (bit 0 of either entry). -/
def entryValid (e : Word) : Bool := e.getLsbD 0
/-- Writable (bit 1). -/
def entryWritable (e : Word) : Bool := e.getLsbD 1
/-- User (bit 2). -/
def entryUser (e : Word) : Bool := e.getLsbD 2
/-- Modified (bit 4 of a page table entry). -/
def entryModified (e : Word) : Bool := e.getLsbD 4
/-- Nonpaged (bit 3 of a segment table entry, R87, R88). -/
def entryNonpaged (e : Word) : Bool := e.getLsbD 3

/-- Whether the User and Writable bits allow the access (R90). -/
def permitted (kind : Kind) (user : Bool) (e : Word) : Bool :=
  (!user || entryUser e) && (kind != .write || entryWritable e)

/-- Whether `va` is inside a nonpaged segment's bound (R88, D15). -/
def inBound (ste va : Word) : Bool :=
  decide ((va.extractLsb' 12 10 : BitVec 10) ≤ (ste.extractLsb' 12 10 : BitVec 10))

/-- The physical address under a page table entry (R89). -/
def pageAddress (pte va : Word) : Word := (pte.extractLsb' 12 20 : BitVec 20) ++ (va.extractLsb' 0 12 : BitVec 12)

/-- The physical address under a nonpaged segment table entry (R88). -/
def segmentAddress (ste va : Word) : Word :=
  (ste.extractLsb' 22 10 : BitVec 10) ++ (va.extractLsb' 0 22 : BitVec 22)

/-- A translation: none (R85), a page table entry, or a nonpaged segment table entry. -/
inductive Mapping where
  | physical
  | page (pte : Word)
  | segment (ste : Word)
  deriving DecidableEq, Repr

/-- The physical address under a mapping. -/
def Mapping.address (m : Mapping) (va : Word) : Word :=
  match m with
  | .physical => va
  | .page pte => pageAddress pte va
  | .segment ste => segmentAddress ste va

/-- Whether a mapping allows an access (R90). -/
def Mapping.allows (m : Mapping) (kind : Kind) (user : Bool) (va : Word) : Bool :=
  match m with
  | .physical => true
  | .page pte => permitted kind user pte
  | .segment ste => permitted kind user ste && inBound ste va

/-- Whether text under a mapping may be kept in the prefetch buffer: its Cache bit, 11 of either entry (R88, R89, R105);
never with physical addressing, where NCACHE is asserted on every access (R85). -/
def Mapping.cacheable (m : Mapping) : Bool :=
  match m with
  | .physical => false
  | .page pte => pte.getLsbD 11
  | .segment ste => ste.getLsbD 11

/-- The TLB entry for a virtual page. -/
def findTlb (page : BitVec 20) (tlb : List TlbEntry) : Option TlbEntry := tlb.find? fun e => e.page == page

/-- The nonpaged segment register, when it holds this segment. -/
def findNpsr (seg : BitVec 10) (r : Option Npsr) : Option Npsr := r.filter fun e => e.seg == seg

/-- The TLB of the bank that `kind` uses (R94). -/
def tlbOf (kind : Kind) (s : State) : List TlbEntry := if kind = .text then s.textTlb else s.dataTlb

/-- The nonpaged segment register of the bank that `kind` uses. -/
def npsrOf (kind : Kind) (s : State) : Option Npsr := if kind = .text then s.textNpsr else s.dataNpsr

/-- What the tables in memory say of `va` now; `none` where they say nothing valid or the bus does not answer as RAM. -/
def tableMapping (va : Word) (s : State) : Option Mapping :=
  if busAnswer s.busMap (steAddr s.stb va) != .ram then none
  else
    let ste := Memory.readBE s.mem (wordAlign (steAddr s.stb va)) 4
    if !entryValid ste then none
    else if entryNonpaged ste then some (.segment ste)
    else if busAnswer s.busMap (pteAddr ste va) != .ram then none
    else
      let pte := Memory.readBE s.mem (wordAlign (pteAddr ste va)) 4
      if entryValid pte then some (.page pte) else none

/-- A cached mapping may have been dropped, at any time (R94, log 16): a free choice, made where a walk would be seen.
-/
def maybeForget (va : Word) (m : Mapping) (s : State) : Option Mapping × State :=
  if tableMapping va s = some m ∧ s.turns = [] then (some m, s)
  else
    let (b, s) := drawBit s
    (if b then none else some m, s)

/-- The cached mapping for `va`, if it has not been dropped. If the NPSR and the TLB both hold one, either may answer
(log 17). -/
def cachedMapping (kind : Kind) (va : Word) (s : State) : Option Mapping × State :=
  match findNpsr (segmentOf va) (npsrOf kind s), findTlb (pageOf va) (tlbOf kind s) with
  | none, none => (none, s)
  | some n, none => maybeForget va (.segment n.ste) s
  | none, some e => maybeForget va (.page e.pte) s
  | some n, some e =>
    let (b, s) := drawBit s
    maybeForget va (if b then .segment n.ste else .page e.pte) s

/-- Load the bank's NPSR (R90). -/
def loadNpsr (kind : Kind) (e : Npsr) (s : State) : State :=
  if kind = .text then s.setTextNpsr (some e) else s.setDataNpsr (some e)

/-- How many entries a TLB has (R94). -/
def tlbSize : Nat := 32

/-- The TLB with room for an entry for `page` (R94): an entry for the page goes, and from a full TLB one other, freely
chosen (the replacement policy is not stated, log 16). -/
def makeRoom (page : BitVec 20) (tlb : List TlbEntry) (s : State) : List TlbEntry × State :=
  let stay := tlb.filter fun e => e.page != page
  if stay.length < tlbSize then (stay, s)
  else
    let (k, s) := drawBelow tlbSize s
    ((stay.eraseIdx k).take (tlbSize - 1), s)

/-- Load an entry into the bank's TLB (R90). -/
def loadTlb (kind : Kind) (e : TlbEntry) (s : State) : State :=
  let (stay, s) := makeRoom e.page (tlbOf kind s) s
  if kind = .text then s.setTextTlb (e :: stay) else s.setDataTlb (e :: stay)

/-- The page table entry after a successful access: R set, and M for a write (R90). -/
def touched (kind : Kind) (pte : Word) : Word := putBit (if kind = .write then putBit pte 4 true else pte) 3 true

/-- Write a walked page table entry back (R90), when it changed: under LOCK, a bus error being one of the walk (D16). -/
def writeBack (pa old new : Word) (s : State) : Res Unit :=
  if new = old then .ok () s
  else
    let (a, s) := busTurn true pa s
    match a with
    | some .ram => .ok () (physStore pa 4 new s)
    | some .busError => .trap .tableWalkBusFault s
    | some .silent => .halt .busNeverAnswers
    | none => .trap .externalReset s

/-- The walk of the page table (R90): protection is checked before R and M are set (D16). -/
def walkPage (locked : Bool) (kind : Kind) (user : Bool) (va ste : Word) (s : State) : Res Mapping :=
  (physRead locked .tableWalkBusFault (pteAddr ste va) s).bind fun pte s =>
  if !entryValid pte || !permitted kind user pte then .trap (kind.fault va) s
  else
    (writeBack (pteAddr ste va) pte (touched kind pte) s).bind fun _ s =>
    .ok (.page (touched kind pte)) (loadTlb kind ⟨pageOf va, touched kind pte⟩ s)

/-- The table walk (R90): the segment table entry, then the page table entry unless the segment is nonpaged. Invalid
entries are not cached (D16). `locked`: the bus is locked already (R102). -/
def walk (locked : Bool) (kind : Kind) (user : Bool) (va : Word) (s : State) : Res Mapping :=
  (physRead locked .tableWalkBusFault (steAddr s.stb va) s).bind fun ste s =>
  if !entryValid ste then .trap (kind.fault va) s
  else if entryNonpaged ste then .ok (.segment ste) (loadNpsr kind ⟨segmentOf va, ste⟩ s)
  else walkPage locked kind user va ste s

/-- Whether a cached mapping needs the walk all the same: a write to a page whose M bit is not set (R90). -/
def Mapping.needsWalk (m : Mapping) (kind : Kind) : Bool :=
  match m with
  | .page pte => kind == .write && !entryModified pte
  | _ => false

/-- The translation of a virtual address (R90). `user` is the execution level of the protection check. -/
def resolve (locked : Bool) (kind : Kind) (user : Bool) (va : Word) (s : State) : Res Mapping :=
  if !s.vpEff then .ok .physical s
  else
    let (c, s) := cachedMapping kind va s
    let found : Res Mapping :=
      match c with
      | some m => if m.needsWalk kind then walk locked kind user va s else .ok m s
      | none => walk locked kind user va s
    found.bind fun m s =>
    if m.allows kind user va then .ok m s else .trap (kind.fault va) s

/-- The physical address, with the bus locked already or not. -/
def translateIn (locked : Bool) (kind : Kind) (user : Bool) (va : Word) (s : State) : Res Word :=
  (resolve locked kind user va s).bind fun m s => .ok (m.address va) s

/-- Translate a virtual address (R90). -/
def translate (kind : Kind) (user : Bool) (va : Word) (s : State) : Res Word := translateIn false kind user va s

/-- A bus error gives nothing instead of an event. -/
def orNone {α : Type} (r : Res (Option α)) : Res (Option α) :=
  match r with
  | .trap .tableWalkBusFault s => .ok none s
  | r => r

/-- The physical address FLUSHPBE means (47_other.md R337, D32): a walk with no protection check and no R or M update;
`none` if there is no valid translation or the walk meets a bus error. -/
def flushAddress (va : Word) (s : State) : Res (Option Word) :=
  if !s.vpEff then .ok (some va) s
  else orNone <|
    (physRead false .tableWalkBusFault (steAddr s.stb va) s).bind fun ste s =>
    if !entryValid ste then .ok none s
    else if entryNonpaged ste then .ok (if inBound ste va then some (segmentAddress ste va) else none) s
    else
      (physRead false .tableWalkBusFault (pteAddr ste va) s).bind fun pte s =>
      .ok (if entryValid pte then some (pageAddress pte va) else none) s

/-- Forget every translation (a write of STB, R94, 10_state.md R38). -/
def flushTranslations (s : State) : State :=
  (((s.setTextTlb []).setTextNpsr none).setDataTlb []).setDataNpsr none

/-- FLUSHPTE (47_other.md R338): the entries of one page in both TLBs, and both NPSRs. -/
def flushPage (va : Word) (s : State) : State :=
  (((s.setTextTlb (s.textTlb.filter fun e => e.page != pageOf va)).setDataTlb
    (s.dataTlb.filter fun e => e.page != pageOf va)).setTextNpsr none).setDataNpsr none

end Sys2Proof.Machine
end

