-- ==== Sys2Proof/Machine/Text.lean ====
section
/-! DEFINITION. Text (spec/20_memory.md R71, R72, R108, R109): what the decoded instruction cache, the prefetch buffer
and the bus supply for a parcel, and the parcels of an instruction. -/

namespace Sys2Proof.Machine

/-- The earlier values listed for a physical parcel address. -/
def staleValues (a : Word) (xs : List StaleParcel) : List Parcel :=
  (xs.filter fun e => e.addr == a).map fun e => e.value

/-- The physical address of `va` under an earlier text translation. -/
def TextMap.address (m : TextMap) (va : Word) : Word := m.frame ++ (va.extractLsb' 0 12 : BitVec 12)

/-- The parcels the instruction cache may hold for the address `va` (R97, R109): under every translation its page has
had since the last flush, what memory has there, what it had, and what the prefetch buffer still has. -/
def icValues (va : Word) (s : State) : List Parcel :=
  if configICE s.configEff then
    (s.textMaps.filter fun m => m.page == pageOf va).flatMap fun m =>
      Memory.parcel s.mem (m.address va) :: (staleValues (m.address va) s.icStale ++ staleValues (m.address va) s.pfbStale)
  else []

/-- The parcels the prefetch buffer may hold for a physical address: earlier ones, and memory's own (R109). -/
def pfbValues (pa : Word) (s : State) : List Parcel :=
  if configPBE s.configEff then
    staleValues pa s.pfbStale ++ (if quadAlign pa ∈ s.pfbQuads then [Memory.parcel s.mem pa] else [])
  else []

/-- A parcel the prefetch buffer supplies, one of those it may hold, or none, freely (R109, log 18). -/
def heldParcel (pa : Word) (s : State) : Option Parcel × State :=
  let held := pfbValues pa s
  let (k, s) := if held.isEmpty then (0, s) else drawBelow (held.length + 1) s
  (held[k]?, s)

/-- Text read under a mapping may now be in the instruction cache, and, when it is cacheable, in the prefetch buffer
(R88, R89, R110). -/
def noteText (va : Word) (m : Mapping) (s : State) : State :=
  let pa := m.address va
  let s := s.setTextMaps (addNew ⟨pageOf va, pageOf pa⟩ s.textMaps)
  if m.cacheable then s.setPfbQuads (addNew (quadAlign pa) s.pfbQuads) else s

/-- A double word of text as the bus gave it: its address, and the two parcels of its first word or all four. -/
structure TextLine where
  addr    : Word
  parcels : List Parcel
  deriving DecidableEq, Repr

/-- The parcel at a physical address, if the double word holds it. -/
def TextLine.parcel (l : TextLine) (pa : Word) : Option Parcel :=
  if l.addr = pairAlign pa then l.parcels[pa.toNat % 8 / 2]? else none

/-- The text read of the double word at `pa` (R72, 60_exceptions.md R411): two words in one block, with no other master
between them. A bus error ends it; it counts only where `pa` has not been read by then (R71), and an access that is
never answered stops it in either word. -/
def readLine (pa : Word) (s : State) : Res TextLine :=
  let a := pairAlign pa
  (physRead false .ioBusFault a s).bind fun _ s =>
  let half : TextLine := ⟨a, [Memory.parcel s.mem a, Memory.parcel s.mem (a + 2#32)]⟩
  match physRead true .ioBusFault (a + 4#32) s with
  | .ok _ s => .ok ⟨a, half.parcels ++ [Memory.parcel s.mem (a + 4#32), Memory.parcel s.mem (a + 6#32)]⟩ s
  | .trap .ioBusFault s => if (half.parcel pa).isSome then .ok half s else .trap .ioBusFault s
  | .trap t s => .trap t s
  | .halt e => .halt e
  | .refuse e => .refuse e

/-- A bus access begun in `s` that is never answered, when HRESET is on the pins: it ends the access (R411). -/
def endedBy {α : Type} (hreset : Bool) (s : State) (r : Res α) : Res α :=
  match r with
  | .halt e => if hreset then .trap .externalReset s else .halt e
  | r => r

/-- What a read with no architectural cause leaves: its value and its fault are dropped (R91, R108, R112). HRESET ends
it (60_exceptions.md R411), and one that is never answered stops the machine (R377, U14). -/
def dropped {α : Type} (r : Res α) : Res Unit :=
  match r with
  | .ok _ s => .ok () s
  | .trap .externalReset s => .trap .externalReset s
  | .trap _ s => .ok () s
  | .halt e => .halt e
  | .refuse e => .refuse e

/-- The text read for the parcel at `pa` (R108): its double word; with aggressive prefetching the other double word of
its quad word too, before or after it or not, freely (log 19). -/
def readPiece (hreset : Bool) (pa : Word) (s : State) : Res TextLine :=
  let other := fun s => dropped (endedBy hreset s (readLine (pa ^^^ 8#32) s))
  let (k, s) := if configPM s.configEff then drawBelow 3 s else (0, s)
  (if k = 1 then other s else .ok () s).bind fun _ s =>
  (endedBy hreset s (readLine pa s)).bind fun l s =>
  (if k = 2 then other s else .ok () s).bind fun _ s =>
  .ok l s

/-- The parcel at a physical address from the bus: one that the double word read last for this instruction holds needs
no new text read. -/
def busParcel (hreset : Bool) (pa : Word) (line : Option TextLine) (s : State) : Res (Parcel × Option TextLine) :=
  match line.bind fun l => l.parcel pa with
  | some v => .ok (v, line) s
  | none => (readPiece hreset pa s).bind fun l s => .ok ((l.parcel pa).getD 0#16, some l) s

/-- The parcel at a virtual address in the instruction cache, one of those it may hold, freely; an event where it can
hold none. -/
def icParcel (va : Word) (line : Option TextLine) (s : State) : Res (Parcel × Option TextLine) :=
  let held := icValues (textAlign va) s
  if held.isEmpty then .trap .fetchFault s
  else
    let (k, s) := drawBelow held.length s
    .ok (held[k]?.getD 0#16, line) s

/-- Where an instruction's parcels come from: a parcel by its address and the double word of text read last. -/
abbrev Supply := Word → Option TextLine → State → Res (Parcel × Option TextLine)

/-- `n` parcels from a virtual address on. -/
def fetchParcels (get : Supply) (va : Word) (n : Nat) (line : Option TextLine) (s : State) : Res (List Parcel) :=
  match n with
  | 0 => .ok [] s
  | k + 1 =>
    (get va line s).bind fun p s =>
    (fetchParcels get (va + 2#32) k p.2 s).bind fun ps s =>
    .ok (p.1 :: ps) s

/-- Every parcel of the instruction at `va` (30_encoding.md R120, R128): a fault on any of them comes before anything
else about the instruction (60_exceptions.md R373). -/
def fetchFrom (get : Supply) (va : Word) (s : State) : Res (List Parcel) :=
  (get va none s).bind fun p0 s =>
  if p0.1 = cpuParcel then
    (get (va + 2#32) p0.2 s).bind fun p1 s =>
    (fetchParcels get (va + 4#32) (parcelCount p1.1 - 1) p1.2 s).bind fun ps s =>
    .ok (p0.1 :: p1.1 :: ps) s
  else
    (fetchParcels get (va + 2#32) (parcelCount p0.1 - 1) p0.2 s).bind fun ps s =>
    .ok (p0.1 :: ps) s

/-- The parcels of the instruction at `va`: where the decoded instruction cache may hold it, from there, freely, with no
translation and no bus activity (R71, R72), else from `get`. The cache is virtually addressed and holds no protection,
so a page that is not mapped any more (R97, 47_other.md R338) or is not open to the user level may still be supplied
(DESIGN CHOICE, log 18: the spec does not say whether R91's check comes before a hit). -/
def fetchAt (get : Supply) (va : Word) (s : State) : Res (List Parcel) :=
  if (icValues (textAlign va) s).isEmpty then fetchFrom get va s
  else
    let (b, s) := drawBit s
    if b then
      match fetchFrom icParcel va s with
      | .ok ps s => .ok ps s
      | _ => fetchFrom get va s
    else fetchFrom get va s

end Sys2Proof.Machine
end

