-- ==== Sys2Proof/Machine/Prefetch.lean ====
section
/-! DEFINITION. The prefetch unit (spec/20_memory.md R108): where the flow of the text leads, and what is read ahead of
the instruction that runs, at a boundary or between two accesses of an instruction. -/

namespace Sys2Proof.Machine

/-- pcrel10: twice the sign-extended field (30_encoding.md R124). -/
def pcrel10 (f : BitVec 10) : Word := f.signExtend 32 <<< 1

/-- The target of a control-flow operand of the instruction at `a`, where the instruction holds it (30_encoding.md R133,
R147). -/
def directTarget (m : BitVec 4) (o a : Word) : Option Word :=
  if m = 0xE#4 then some (a + o) else if m = 0xF#4 then some o else none

/-- Where prefetching goes on after the unprefixed instruction at `a`, `next` being the address after it (R108): at the
target of CALL, JMP and the conditional jumps that are predicted taken (44_program_control.md R272, R275); nowhere when
the target is indirect; sequentially after every other instruction. -/
def branchFlow (i : Instr) (a next : Word) : Option Word :=
  match i with
  | .callPc10 f => some (a + pcrel10 f)
  | .jmpPc10 f => some (a + pcrel10 f)
  | .jmpfyPc10 f => some (a + pcrel10 f)
  | .jmptyPc10 f => some (a + pcrel10 f)
  | .callF32 m o => directTarget m o a
  | .jmpF32 m o => directTarget m o a
  | .jmpfyA32 m o => directTarget m o a
  | .jmptyA32 m o => directTarget m o a
  | .kcallImm10 _ => none
  | .kcallW32 _ _ => none
  | .returnStk8 _ => none
  | .returnS32 _ _ => none
  | .kret => none
  | .cret => none
  | _ => some next

/-- Where prefetching goes on after the instruction at `a`, a CPU prefix being part of it. -/
def flow (i : Instr) (a next : Word) : Option Word :=
  match i with
  | .cpuWide inner => branchFlow inner a next
  | i => branchFlow i a next

/-- The parcel at a virtual address as the prefetch unit reads it (R108): translated as text, loading the text TLB
(R94), then one the prefetch buffer may hold, freely, or with aggressive prefetching the bus's; else it reads no
further. -/
def aheadParcel (hreset : Bool) (va0 : Word) (line : Option TextLine) (s : State) : Res (Parcel × Option TextLine) :=
  let va := textAlign va0
  (endedBy hreset s (resolve false .text (pswX s.psw) va s)).bind fun m s =>
  let pa := m.address va
  let (held, s) := heldParcel pa s
  match held with
  | some v => .ok (v, line) (noteText va m s)
  | none =>
    if configPM s.configEff then (busParcel hreset pa line s).bind fun v s => .ok v (noteText va m s)
    else .trap .fetchFault s

/-- The prefetch unit decodes the instruction at `a` and goes on where it leads; where a fault or a bus error of its
reads stops it (R91, R108), it waits. -/
def prefetchAt (hreset : Bool) (a : Word) (s : State) : Res Unit :=
  dropped <|
    (fetchAt (aheadParcel hreset) a (s.setAhead none)).bind fun ps s =>
    match decodeParcels ps with
    | .ok (i, _) => .ok () (s.setAhead (flow i a (a + BitVec.ofNat 32 (2 * ps.length))))
    | .error _ => .ok () s

/-- The prefetch unit follows the flow over at most `n` instructions. -/
def prefetchMany (hreset : Bool) (n : Nat) (s : State) : Res Unit :=
  match n with
  | 0 => .ok () s
  | k + 1 =>
    match s.ahead with
    | none => .ok () s
    | some a => (prefetchAt hreset a s).bind fun _ s => prefetchMany hreset k s

/-- Whether the prefetch unit may read ahead (R108): with aggressive prefetching, or where the prefetch buffer may hold
text to decode. -/
def mayPrefetch (s : State) : Bool := configPM s.configEff || !s.pfbQuads.isEmpty

/-- What the prefetch unit may have done since it was last looked at (00_scope.md R9, R108, log 19): it goes on from
where it was, or from the instruction at PC, which the execution unit asks for, over any number of instructions. -/
def prefetch (hreset : Bool) (s : State) : Res Unit :=
  if mayPrefetch s then
    let (b, s) := drawBit s
    let s := if b then s.setAhead (some s.pc) else s
    let (w, s) := drawWord s
    prefetchMany hreset w.toNat s
  else .ok () s

/-- Whether a read with no architectural cause may leave a trace: a translation, or a bus that may not answer as RAM or
has inputs to come. -/
def readsShow (s : State) : Bool := s.vpEff || !s.busMap.isEmpty || !s.turns.isEmpty

/-- What the prefetch unit may do before an access of an instruction (R108: "at any time"): nothing while the bus is
locked (R102), and nothing that could show where no read shows. -/
def readAhead (locked : Bool) (s : State) : Res Unit :=
  if !locked && readsShow s then prefetch false s else .ok () s

end Sys2Proof.Machine
end

