-- ==== Sys2Proof/Machine/Access.lean ====
section
/-! DEFINITION. Data accesses (spec/20_memory.md R65, R70): alignment, the stack cache (spec/10_state.md R12, R47),
translation and the bus. -/

namespace Sys2Proof.Machine

/-- How an access is made. -/
structure Access where
  /-- The level its protection check is made at: true for user (R70, 60_exceptions.md R362). -/
  user : Bool
  /-- Whether it goes through the interrupt stack or the vector table, whose accesses do not reliably consult the stack
  cache (R78, U4, log 28). -/
  shaky : Bool
  /-- Whether it is a store whose bus error is reported precisely (an interlocked store, a sequence's, and the store of
  the unimplemented and trapped sequences; D24, log 48); an ordinary store's is imprecise (60_exceptions.md R376). -/
  precise : Bool
  /-- Whether it is the second half of an interlocked pair, made under LOCK (R102). -/
  locked : Bool
  deriving DecidableEq, Repr

/-- Whether SP <= MSP <= SP + 256 (10_state.md R47), unsigned and with no wrap. -/
def windowOk (s : State) : Bool :=
  decide (s.sp.toNat ≤ s.msp.toNat) && decide (s.msp.toNat ≤ s.sp.toNat + scSize)

/-- The stack cache hit test (10_state.md R12): it does not depend on PSW.CSP (D4, log 54). -/
def hits (va : Word) (s : State) : Bool :=
  configSC s.configEff && decide (s.sp ≤ va) && decide (va < s.msp)

/-- Some of the stack cache's cells take free values. -/
def scrambleCells (p : Fin 64 → Bool) (s : State) : State :=
  (s.setCache (Vector.ofFn fun i => if p i then Config.freeWord (s.free + i.val) else s.cache[i])).setFree (s.free + 64)

/-- Whether the access is served by the stack cache. A shaky access inside the window goes either way (U4, log 28).
While the cache is enabled and its window is not usable, its cells hold nothing known and every access goes either way
(R47, U2: the result is unpredictable; log 26). -/
def useCache (acc : Access) (va : Word) (s : State) : Bool × State :=
  if configSC s.configEff && !windowOk s then drawBit (scrambleCells (fun _ => true) s)
  else if hits va s then (if acc.shaky then drawBit s else (true, s)) else (false, s)

/-- The stack cache cell of an address (10_state.md R11): the buffer has 64 words, so `a` and `a + 256` share one. -/
def cellIndex (va : Word) : Fin 64 := ⟨va.toNat / 4 % 64, Nat.mod_lt _ (by decide)⟩

/-- The stack cache's word at an address. -/
def readCell (va : Word) (s : State) : Word := s.cache[cellIndex va]

/-- The stack cache with the word of an address replaced. -/
def writeCell (va v : Word) (s : State) : State := s.setCache (s.cache.set (cellIndex va) v)

/-- The byte order of data accesses in force (R60): little-endian or not. -/
def little (s : State) : Bool := if pswX s.psw then pswUL s.psw else configKL s.configEff

/-- What every data access meets first: alignment (R65). -/
def checkAccess (va : Word) (n : Nat) (s : State) : Res Unit := raiseIf (!aligned va n) .alignmentFault s

/-- The physical address of a data access (R90); the prefetch unit may read text before it. -/
def dataAddress (locked : Bool) (kind : Kind) (user : Bool) (va : Word) (s : State) : Res Word :=
  (readAhead locked s).bind fun _ s => translateIn locked kind user va s

/-- Read `n` bytes (1, 2 or 4) at a virtual address (R70's MemRead). -/
def memRead (acc : Access) (va : Word) (n : Nat) (s : State) : Res Word :=
  (checkAccess va n s).bind fun _ s =>
  let (cached, s) := useCache acc va s
  if cached then .ok (laneGet n (laneAddr (little s) n va) (readCell va s)) s
  else
    (dataAddress false .read acc.user va s).bind fun pa s =>
    (readAhead false s).bind fun _ s =>
    (physRead false .ioBusFault pa s).bind fun w s =>
    .ok (laneGet n (laneAddr (little s) n pa) w) s

/-- Where a store will land once it is known that it may (R70, R371: every check comes before any write). -/
inductive Target where
  /-- The stack cache's word at this virtual address. -/
  | cell (va : Word)
  /-- Physical memory. -/
  | phys (pa : Word)
  deriving DecidableEq, Repr

/-- The checks of a store of `n` bytes (R70's MemWrite up to the write). -/
def prepWrite (acc : Access) (va : Word) (n : Nat) (s : State) : Res Target :=
  (checkAccess va n s).bind fun _ s =>
  let (cached, s) := useCache acc va s
  if cached then .ok (.cell va) s
  else (dataAddress acc.locked .write acc.user va s).bind fun pa s => .ok (.phys pa) s

/-- How many words of a transfer of `n` words from `pa` up the bus takes: it ends at the first bus error, which is
raised at once when `acc.precise`. No other master comes between its words (R64, 60_exceptions.md R411). HRESET drops
the whole transfer (DESIGN CHOICE, log 12). -/
def takenWords (acc : Access) (pa : Word) (n : Nat) (s : State) : Res Nat :=
  match n with
  | 0 => .ok 0 s
  | k + 1 =>
    let (a, s) := busTurn acc.locked pa s
    match a with
    | some .ram => (takenWords { acc with locked := true } (pa + 4#32) k s).bind fun j s => .ok (j + 1) s
    | some .busError => if acc.precise then .trap .ioBusFault s else .ok 0 s
    | some .silent => .halt .busNeverAnswers
    | none => .trap .externalReset s

/-- A store whose bus transactions have been answered. -/
inductive Grant where
  /-- The stack cache's words from this virtual address up. -/
  | cell (va : Word)
  /-- Physical memory, and how many words the bus takes. -/
  | phys (pa : Word) (taken : Nat)
  deriving DecidableEq, Repr

/-- The bus transactions of a store of `n` words: the last thing that can stop it. The prefetch unit may read text
before them. -/
def claim (acc : Access) (t : Target) (n : Nat) (s : State) : Res Grant :=
  match t with
  | .cell va => .ok (.cell va) s
  | .phys pa =>
    (readAhead acc.locked s).bind fun _ s =>
    (takenWords acc pa n s).bind fun k s => .ok (.phys pa k) s

/-- Store the low `n` bytes of `v`. A store the bus answers with BERR leaves memory as it was and waits to be reported
(60_exceptions.md R376, log 11). -/
def commit (g : Grant) (n : Nat) (v : Word) (s : State) : State :=
  match g with
  | .cell va => writeCell va (lanePut n (laneAddr (little s) n va) (readCell va s) v) s
  | .phys pa taken =>
    if taken = 0 then s.setWriteFaults (s.writeFaults + 1) else physStore (laneAddr (little s) n pa) n v s

/-- Write `n` bytes at a virtual address (R70's MemWrite). -/
def memWrite (acc : Access) (va : Word) (n : Nat) (v : Word) (s : State) : Res Unit :=
  (prepWrite acc va n s).bind fun t s =>
  (claim acc t 1 s).bind fun g s =>
  .ok () (commit g n v s)

/-- The current stack pointer (10_state.md R13). -/
def csp (s : State) : Word := if pswCSP s.psw then s.sp else s.isp

/-- An ordinary operand access at the current level. -/
def plainAccess (s : State) : Access := ⟨pswX s.psw, false, false, false⟩

/-- An access relative to the current stack pointer: shaky when that is the interrupt stack pointer (R78). -/
def stackAccess (s : State) : Access := ⟨pswX s.psw, !pswCSP s.psw, false, false⟩

/-- The same access, its bus error reported precisely. -/
def Access.exact (a : Access) : Access := { a with precise := true }

/-- The same access as the store of an interlocked pair: exact, and under LOCK (R102). -/
def Access.interlocked (a : Access) : Access := { a with precise := true, locked := true }

/-- The accesses of event sequences, KCALL, KRET and CRET: kernel level whatever PSW.X is (60_exceptions.md R362, D23).
-/
def sequenceAccess : Access := ⟨false, true, true, false⟩

/-- A memory fault in a sequence's own access is an internally caused reset (60_exceptions.md R379). -/
def orReset {α : Type} (r : Res α) : Res α :=
  match r with
  | .ok a s => .ok a s
  | .trap .externalReset s => .trap .externalReset s
  | .trap _ s => .trap .internalReset s
  | .halt e => .halt e
  | .refuse e => .refuse e

/-- A word a sequence reads (60_exceptions.md R362). -/
def sequenceRead (va : Word) (s : State) : Res Word := orReset (memRead sequenceAccess va 4 s)

/-- A word a sequence writes. -/
def sequenceWrite (va v : Word) (s : State) : Res Unit := orReset (memWrite sequenceAccess va 4 v s)

end Sys2Proof.Machine
end

