-- ==== Sys2Proof/Machine/Ops.lean ====
section
/-! DEFINITION. The control registers as operands (spec/10_state.md R25 to R43), taking an event and returning from one
(spec/60_exceptions.md R360 to R380), reset (spec/70_reset_and_hazards.md R420), and how an instruction ends. -/

namespace Sys2Proof.Machine

/-- The numbered registers (10_state.md R42). -/
inductive Reg where
  | msp | isp | sp | config | psw | shad | vb | stb | fault | id | timer1 | timer2
  deriving DecidableEq, Repr

/-- The register a register field names: bits 3:0 of the field (R42); `none` for 0x0 and 0xD to 0xF. -/
def Reg.ofField (f : Word) : Option Reg :=
  match (f.extractLsb' 0 4).toNat with
  | 0x1 => some .msp
  | 0x2 => some .isp
  | 0x3 => some .sp
  | 0x4 => some .config
  | 0x5 => some .psw
  | 0x6 => some .shad
  | 0x7 => some .vb
  | 0x8 => some .stb
  | 0x9 => some .fault
  | 0xA => some .id
  | 0xB => some .timer1
  | 0xC => some .timer2
  | _ => none

/-- ID (R36): version, part and manufacturer codes; the version is `P_MASK_VERSION` (log 6). -/
def idRegister : Word := if Config.maskTwo then 0x1000003B#32 else 0x0000003B#32

/-- PSW as an instruction reads it (70_reset_and_hazards.md R441, log 22): each flag the last two instructions wrote may
still have its value from before. -/
def stalePsw (window : List Recent) (p : Word) (s : State) : Word × State :=
  match window with
  | [] => (p, s)
  | r :: rest =>
    let (p, s) := drawMix r.flags p r.pswBefore s
    stalePsw rest p s

/-- What a write of `v` leaves in PSW (R441, log 22): each flag the last two instructions wrote keeps the value they
produced or takes the written one. `made` is the PSW the latest of them left. -/
def mixedPsw (window : List Recent) (made v : Word) (s : State) : Word × State :=
  match window with
  | [] => (v, s)
  | r :: rest =>
    let (v, s) := drawMix r.flags v made s
    mixedPsw rest r.pswBefore v s

/-- SHAD as an instruction reads it (70_reset_and_hazards.md R444, log 24): after ENTER, RETURN or POPN, the old value
or the new one. -/
def staleShad (window : List Recent) (v : Word) (s : State) : Word × State :=
  match window with
  | [] => (v, s)
  | r :: rest =>
    match r.shadMove with
    | none => staleShad rest v s
    | some m =>
      let (b, s) := drawBit s
      staleShad rest (if b then m.before else v) s

/-- What a write of `v` leaves in SHAD (R444, log 24): `v`, or what an ENTER, RETURN or POPN among the last two
instructions produced. -/
def mixedShad (window : List Recent) (v : Word) (s : State) : Word × State :=
  match window with
  | [] => (v, s)
  | r :: rest =>
    match r.shadMove with
    | none => mixedShad rest v s
    | some m =>
      let (b, s) := drawBit s
      mixedShad rest (if b then m.made else v) s

/-- A register as an operand (R42): 32 bits, at either level. -/
def readRegister (r : Reg) (s : State) : Word × State :=
  match r with
  | .msp => (s.msp, s)
  | .isp => (s.isp, s)
  | .sp => (s.sp, s)
  | .config => (s.config, s)
  | .psw => stalePsw s.recent s.psw s
  | .shad => staleShad s.recent s.shad s
  | .vb => (s.vb, s)
  | .stb => (s.stb, s)
  | .fault => (s.fault, s)
  | .id => (idRegister, s)
  | .timer1 => (s.timer1, s)
  | .timer2 => (s.timer2, s)

/-- Write SHAD (R37). -/
def writeShad (v : Word) (s : State) : State :=
  let (w, s) := mixedShad s.recent v s
  s.setShad (quadAlign w)

/-- Write PSW (R25 to R28): its reserved bits are ignored, SHAD is left alone, and the addressing mode in effect
follows later (log 21). -/
def writePsw (v : Word) (s : State) : State :=
  let (p, s) := mixedPsw s.recent s.psw (v &&& pswMask) s
  s.setPsw p

/-- A register as the destination of an instruction (R26 to R43): bits a register has not are dropped; SP takes MSP
with it; the register that is the CSP takes SHAD with it; STB flushes the translations; ID ignores the write. -/
def writeRegister (r : Reg) (v : Word) (s : State) : State :=
  match r with
  | .msp => s.setMsp (quadAlign v)
  | .isp =>
    let s := s.setIsp (quadAlign v)
    if pswCSP s.psw then s else s.setShad (quadAlign v)
  | .sp =>
    let s := (s.setSp (quadAlign v)).setMsp (quadAlign v)
    if pswCSP s.psw then s.setShad (quadAlign v) else s
  | .config => s.setConfig (v &&& configMask)
  | .psw => writePsw v s
  | .shad => writeShad v s
  | .vb => s.setVb (quadAlign v)
  | .stb => flushTranslations (s.setStb (v &&& stbMask))
  | .fault => s.setFault v
  | .id => s
  | .timer1 => s.setTimer1 v
  | .timer2 => s.setTimer2 v

/-- Move the current stack pointer, and SHAD with it (44_program_control.md R280). -/
def setCsp (v : Word) (s : State) : State :=
  (if pswCSP s.psw then s.setSp (quadAlign v) else s.setIsp (quadAlign v)).setShad (quadAlign v)

/-- Every entry of the prefetch buffer and of the instruction cache becomes invalid (70_reset_and_hazards.md R420). -/
def flushTextCaches (s : State) : State := (((s.setPfbStale []).setIcStale []).setTextMaps []).setPfbQuads []

/-- The registers an external reset leaves undefined or unspecified take free values (10_state.md R46, log 8). -/
def forgetRegisters (s : State) : State :=
  let (a, s) := drawWord s
  let (b, s) := drawWord s
  let (c, s) := drawWord s
  let (d, s) := drawWord s
  let (e, s) := drawWord s
  let (f, s) := drawWord s
  let (g, s) := drawWord s
  let (h, s) := drawWord s
  let s := (((s.setSp (quadAlign a)).setMsp (quadAlign b)).setIsp (quadAlign c)).setVb (quadAlign d)
  let s := (((s.setStb (e &&& stbMask)).setFault f).setTimer1 g).setTimer2 h
  scrambleCells (fun _ => true) s

/-- What every reset does (70_reset_and_hazards.md R420; the hidden bits: D2). Stores in flight are dropped (log 44). -/
def resetCommon (shad : Word) (s : State) : State :=
  let s := flushTextCaches (flushTranslations s)
  let s := ((((s.setShad shad).setPsw 0#32).setConfig 0#32).setConfigEff 0#32).setVpEff false
  let s := (((s.setPc 0#32).setT1Pending false).setT2Pending false).setNmiArmed true
  let s := ((s.setTracePending false).setWriteFaults 0).setRecent []
  ((s.setEnded .event).setFoldable false).setAhead none

/-- The reset sequence (R420, R421): after HRESET, SHAD is 0 and what the spec leaves open is free; after an internally
caused reset SHAD is the PSW and every other register keeps its value (D2, log 44). -/
def resetSequence (external : Bool) (s : State) : State :=
  if external then forgetRegisters (resetCommon 0#32 s) else resetCommon (quadAlign s.psw) s

/-- The exception identifier (60_exceptions.md R372). -/
def Trap.identifier (t : Trap) : Word :=
  match t with
  | .zeroDivide => 0x1#32
  | .trace => 0x2#32
  | .illegalInstruction => 0x3#32
  | .alignmentFault => 0x4#32
  | .privilegeViolation => 0x5#32
  | .unimplementedRegister => 0x6#32
  | .fetchFault => 0x7#32
  | .dataReadFault _ => 0x8#32
  | .dataWriteFault _ => 0x9#32
  | .ioBusFault => 0xA#32
  | .tableWalkBusFault => 0xB#32
  | .internalReset => 0x0#32
  | .externalReset => 0x0#32

/-- The FAULT register after an exception: the address for identifiers 0x8 and 0x9, unchanged for the others (R372). -/
def recordFault (t : Trap) (s : State) : State :=
  match t with
  | .dataReadFault va => s.setFault va
  | .dataWriteFault va => s.setFault va
  | _ => s

/-- The SHAD step (R361): the register that is the CSP takes SHAD's value; MSP stays. -/
def restoreCsp (s : State) : State := if pswCSP s.psw then s.setSp s.shad else s.setIsp s.shad

/-- The two stores every event frame has (R363): the PC to resume at and the PSW. -/
def pushFrame (pc : Word) (s : State) : Res Unit :=
  (sequenceWrite (s.isp - 8#32) pc s).bind fun _ s =>
  sequenceWrite (s.isp - 4#32) s.psw s

/-- The end of every sequence that enters the kernel (R360, R370, 44_program_control.md R277): the frame is below ISP,
SHAD follows, PC comes from the vector, and PSW keeps only its upper half. -/
def enterKernel (vector : Word) (s : State) : Res Unit :=
  let s := (s.setIsp (s.isp - 16#32)).setShad (s.isp - 16#32)
  (sequenceRead vector s).bind fun h s =>
  .ok () ((s.setPc (textAlign h)).setPsw (eventPsw s.psw))

/-- What an event sequence leaves besides (R405 (d), log 42; the hazards of 70 R441, R444 do not reach a handler). -/
def eventDone (s : State) : State :=
  (((s.setTracePending false).setRecent []).setEnded .event).setFoldable false

/-- The interrupt sequence (60_exceptions.md R360). -/
def interruptSequence (vector : Word) (s : State) : Res Unit :=
  (pushFrame s.pc (restoreCsp s)).bind fun _ s =>
  (enterKernel vector s).bind fun _ s =>
  .ok () (eventDone s)

/-- The exception sequence (R370): the saved PC is the PC, which only a completed instruction moves. -/
def exceptionSequence (t : Trap) (s : State) : Res Unit :=
  let s := restoreCsp (recordFault t s)
  (sequenceWrite (s.isp - 12#32) t.identifier s).bind fun _ s =>
  (pushFrame s.pc s).bind fun _ s =>
  (enterKernel (s.vb + 4#32) s).bind fun _ s =>
  .ok () (eventDone s)

/-- A sequence's end: a failure inside it is an internally caused reset (R379), and HRESET in it an external one (R411).
-/
def settleSequence (r : Res Unit) : Host.Outcome State Fault Refusal :=
  match r with
  | .ok _ s => .next s
  | .trap t s => .next (resetSequence (t == .externalReset) s)
  | .halt e => .fault e
  | .refuse e => .refused e

/-- Take an exception: the one place where an instruction's event becomes a state. -/
def takeTrap (t : Trap) (s : State) : Host.Outcome State Fault Refusal :=
  match t with
  | .internalReset => .next (resetSequence false s)
  | .externalReset => .next (resetSequence true s)
  | t => settleSequence (exceptionSequence t s)

/-- An instruction's end: its event, if it raised one, is taken. -/
def settle (r : Res Unit) : Host.Outcome State Fault Refusal :=
  match r with
  | .ok _ s => .next s
  | .trap t s => takeTrap t s
  | .halt e => .fault e
  | .refuse e => .refused e

/-- The hazard record of an instruction begun in `s` that causes no hazard. -/
def quiet (s : State) : Recent := ⟨0#32, s.psw, none, none, [], none⟩

/-- An instruction completes: PC goes on, bit 0 dropped (R16, R17), and its hazard record is the latest of two. -/
def retire (target : Word) (r : Recent) (s : State) : Res Unit :=
  .ok () (((s.setPc (textAlign target)).setRecent (r :: s.recent.take 1)).setEnded .completed)

/-- The unimplemented instruction sequence, and with VB + 8 the trapped niladic's (R380, R381): a store of the opcode's
address at the CSP at the current level, whose faults, a bus error among them, are exceptions of the opcode (D24), and a
kernel-level vector read (D23). The sequence neither counts as one of the two instructions of the hazard windows of
70_reset_and_hazards.md R441 to R447 nor ends them (DESIGN CHOICE, log 56: the spec is silent). -/
def unimplementedSequence (offset : Word) (s : State) : Res Unit :=
  (memWrite (stackAccess s).exact (csp s) 4 s.pc s).bind fun _ s =>
  (sequenceRead (s.vb + offset) s).bind fun h s =>
  .ok () ((s.setPc (textAlign h)).setEnded .emulated)

/-- The addressing mode and configuration in effect catch up (70_reset_and_hazards.md R446, log 56). -/
def synchronise (s : State) : State := (s.setConfigEff s.config).setVpEff (pswVP s.psw)

/-- A hazard record whose flags are in order: KRET and CRET load PSW whole (70_reset_and_hazards.md R441). -/
def Recent.settled (r : Recent) : Recent := { r with flags := 0#32 }

/-- The hazard records after KRET or CRET begun in `s`: each is one instruction, which ends R441's hazard and no other.
-/
def leaveRecent (s : State) : List Recent := quiet s :: (s.recent.take 1).map Recent.settled

/-- The end of KRET and CRET (44_program_control.md R278, R264): PSW and PC are loaded, the frame is popped, and SHAD
follows the restored CSP. -/
def leaveKernel (pc psw : Word) (s : State) : Res Unit :=
  let rs := leaveRecent s
  let s := ((s.setIsp (s.isp + 16#32)).setPsw (psw &&& pswMask)).setPc (textAlign pc)
  let s := synchronise (s.setShad (csp s))
  .ok () ((s.setRecent rs).setEnded .completed)

end Sys2Proof.Machine
end

