-- ==== Sys2Proof/Machine/Operands.lean ====
section
/-! DEFINITION. Operands (spec/30_encoding.md R126, R130 to R147): modes, extension, addresses, and the reads and writes
of the places they name. -/

namespace Sys2Proof.Machine

/-- An operand field as encoded: 16 bits in a three-parcel dyadic, else a 32-bit value (R140). -/
inductive Field where
  | short (f : BitVec 16)
  | long (f : Word)
  deriving DecidableEq, Repr

/-- An operand: a mode code and a field (R140). -/
structure Operand where
  mode  : BitVec 4
  field : Field
  deriving DecidableEq, Repr

/-- The two operands of a dyadic instruction and its length in parcels without a prefix. -/
structure Form where
  src     : Operand
  dst     : Operand
  parcels : Nat
  deriving DecidableEq, Repr

/-- The kinds of mode (R130, R132). -/
inductive ModeKind where
  | absolute
  | stack
  | indirect
  | immediate
  | register
  deriving DecidableEq, Repr

/-- The kind of a mode code; `none` where it is illegal. `px` says whether a CPU prefix stands before the instruction:
then only 0x7 (a register) and the word modes are legal (R132, D25). -/
def modeKind (px : Bool) (m : BitVec 4) : Option ModeKind :=
  match m.toNat with
  | 0xC => some .absolute
  | 0xD => some .stack
  | 0xE => some .indirect
  | 0xF => some .immediate
  | 0x7 => some (if px then .register else .stack)
  | n => if px then none else if n < 4 then some .absolute else if n < 8 then some .stack else some .indirect

/-- Whether a mode code is legal (R130, R132). -/
def legalMode (px : Bool) (m : BitVec 4) : Bool := (modeKind px m).isSome

/-- Whether the operand is a register (R145). -/
def isRegister (px : Bool) (o : Operand) : Bool := px && o.mode == 0x7#4

/-- Whether the operand is an immediate (R144). -/
def isImmediate (o : Operand) : Bool := o.mode == 0xF#4

/-- Whether a mode is one of the word modes (R130). -/
def wordMode (m : BitVec 4) : Bool := decide (0xC#4 ≤ m)

/-- The size in bytes of an operand (R130, R146). -/
def modeSize (px : Bool) (m : BitVec 4) : Nat :=
  if px || wordMode m then 4 else if m.getLsbD 1 then 2 else 1

/-- Whether a sub-word mode is signed: even codes are (R130). -/
def modeSigned (m : BitVec 4) : Bool := !m.getLsbD 0

/-- A value of `size` bytes extended to 32 bits (R131). -/
def extend (size : Nat) (isSigned : Bool) (v : Word) : Word :=
  if size = 1 then (if isSigned then (v.setWidth 8).signExtend 32 else (v.setWidth 8).setWidth 32)
  else if size = 2 then (if isSigned then (v.setWidth 16).signExtend 32 else (v.setWidth 16).setWidth 32)
  else v

/-- A 16-bit absolute address (R126, R143): the upper half is 0, or with CONFIG.PX the region the code runs in. -/
def extendAbsolute (f : BitVec 16) (s : State) : Word :=
  if configPX s.configEff then (s.pc.extractLsb' 29 3 : BitVec 3) ++ 0#13 ++ f else f.setWidth 32

/-- A field as a constant, an offset or a register number (R126): a 16-bit field is sign extended. -/
def Field.value (f : Field) : Word :=
  match f with
  | .short f => f.signExtend 32
  | .long f => f

/-- A field as an absolute address (R143). -/
def Field.address (f : Field) (s : State) : Word :=
  match f with
  | .short f => extendAbsolute f s
  | .long f => f

/-- The address of the word a stack offset names (R141, R142). -/
def stackAddress (o : Operand) (s : State) : Word := csp s + o.field.value

/-- Where an operand is, once its address is known. -/
inductive Place where
  | register (r : Reg)
  | constant (v : Word)
  | memory (acc : Access) (va : Word) (size : Nat) (isSigned : Bool)
  deriving DecidableEq, Repr

/-- Whether a register operand names a register that is not there (R145). -/
def missingRegister (px : Bool) (o : Operand) : Bool := isRegister px o && (Reg.ofField o.field.value).isNone

/-- Whether every address of the operand that is known without reading memory is aligned: the operand's own, or the
pointer's (R65, R142). -/
def staticAligned (px : Bool) (size : Nat) (o : Operand) (s : State) : Bool :=
  match modeKind px o.mode with
  | some .absolute => aligned (o.field.address s) size
  | some .stack => aligned (stackAddress o s) size
  | some .indirect => aligned (stackAddress o s) 4
  | _ => true

/-- Find an operand's place (R141 to R145): an indirect mode reads its pointer, and the address found is checked for
alignment (60_exceptions.md R386). `size` is the operand's size in bytes. -/
def locate (px : Bool) (size : Nat) (o : Operand) (s : State) : Res Place :=
  match modeKind px o.mode with
  | some .absolute => .ok (.memory (plainAccess s) (o.field.address s) size (modeSigned o.mode)) s
  | some .stack => .ok (.memory (stackAccess s) (stackAddress o s) size (modeSigned o.mode)) s
  | some .indirect =>
    (memRead (stackAccess s) (stackAddress o s) 4 s).bind fun p s =>
    (raiseIf (!aligned p size) .alignmentFault s).bind fun _ s =>
    .ok (.memory (plainAccess s) p size (modeSigned o.mode)) s
  | some .immediate => .ok (.constant o.field.value) s
  | some .register =>
    match Reg.ofField o.field.value with
    | some r => .ok (.register r) s
    | none => .trap .unimplementedRegister s
  | none => .trap .illegalInstruction s

/-- What of an instruction decides whether an operand may still show a truncated result (70_reset_and_hazards.md R443).
-/
structure Reader where
  /-- Whether it is a division, a remainder or a right shift. -/
  divides : Bool
  /-- The size of its destination, 0 if it has none. -/
  dstSize : Nat
  deriving DecidableEq, Repr

/-- A sub-word operand as an instruction reads it (R443, log 23): the correct value, or the 32-bit result that one of
the last two instructions truncated there. -/
def staleSubword (window : List Recent) (who : Reader) (va : Word) (size : Nat) (v : Word) (s : State) : Word × State :=
  match window with
  | [] => (v, s)
  | r :: rest =>
    match r.subword with
    | none => staleSubword rest who va size v s
    | some w =>
      if w.addr = va ∧ w.size = size ∧ (who.divides = true ∨ w.size < who.dstSize) then
        let (b, s) := drawBit s
        staleSubword rest who va size (if b then w.value else v) s
      else staleSubword rest who va size v s

/-- The 32-bit value of the operand at a place (R146's opval). -/
def readPlace (who : Reader) (p : Place) (s : State) : Res Word :=
  match p with
  | .constant v => .ok v s
  | .register r =>
    let (v, s) := readRegister r s
    .ok v s
  | .memory acc va size isSigned =>
    (memRead acc va size s).bind fun v s =>
    let (v, s) := staleSubword s.recent who va size (extend size isSigned v) s
    .ok v s

/-- A destination that may be stored to. -/
inductive Dest where
  | register (r : Reg)
  | memory (acc : Access) (t : Target) (size : Nat)
  deriving DecidableEq, Repr

/-- The checks of a store to a place (R146's opstore up to the store). An immediate never gets here (R144, U5). -/
def prepPlace (interlocked : Bool) (p : Place) (s : State) : Res Dest :=
  match p with
  | .register r => .ok (.register r) s
  | .constant _ => .trap .illegalInstruction s
  | .memory acc va size _ =>
    let acc := if interlocked then acc.interlocked else acc
    (prepWrite acc va size s).bind fun t s => .ok (.memory acc t size) s

/-- A destination whose store nothing can stop any more. -/
inductive Ready where
  | register (r : Reg)
  | memory (g : Grant) (size : Nat)
  deriving DecidableEq, Repr

/-- The bus transaction of a store to a destination in memory, after every check of the instruction. -/
def claimDest (d : Dest) (s : State) : Res Ready :=
  match d with
  | .register r => .ok (.register r) s
  | .memory acc t size => (claim acc t 1 s).bind fun g s => .ok (.memory g size) s

/-- The store (R146's opstore). -/
def storeDest (d : Ready) (v : Word) (s : State) : State :=
  match d with
  | .register r => writeRegister r v s
  | .memory g size => commit g size v s

/-- A register destination at user level is a privilege violation (R145, 60_exceptions.md R391). -/
def Place.privileged (p : Place) (s : State) : Bool :=
  match p with
  | .register _ => pswX s.psw
  | _ => false

/-- The accumulator's place: the word at CSP + 4 (10_state.md R14). -/
def accPlace (s : State) : Place := .memory (stackAccess s) (csp s + 4#32) 4 false

/-- What an instruction does with its second operand. -/
inductive DstUse where
  | reads
  | writes
  | updates
  deriving DecidableEq, Repr

/-- Whether the second operand is written. -/
def DstUse.writing (u : DstUse) : Bool := u != .reads

/-- Whether the second operand is read. -/
def DstUse.reading (u : DstUse) : Bool := u != .writes

/-- What depends on the instruction's parcels alone, in priority order: illegal modes (R132, R161; an immediate
destination, U5, log 29), registers that are not there (R145), two registers read (10_state.md R42, U12, log 33). -/
def checkForm (px : Bool) (u : DstUse) (f : Form) (s : State) : Res Unit :=
  if !legalMode px f.src.mode || !legalMode px f.dst.mode || (u.writing && isImmediate f.dst) then
    .trap .illegalInstruction s
  else if missingRegister px f.src || missingRegister px f.dst then .trap .unimplementedRegister s
  else if isRegister px f.src && isRegister px f.dst && u.reading then .refuse .twoRegistersRead
  else .ok () s

/-- The two operands' places, with every check up to the reads of the pointers, in the order of 60_exceptions.md R386
(log 38). -/
def openForm (px : Bool) (u : DstUse) (f : Form) (s : State) : Res (Place × Place) :=
  let n := modeSize px f.src.mode
  let m := modeSize px f.dst.mode
  (checkForm px u f s).bind fun _ s =>
  (raiseIf (!staticAligned px n f.src s || !staticAligned px m f.dst s) .alignmentFault s).bind fun _ s =>
  (locate px n f.src s).bind fun a s =>
  (locate px m f.dst s).bind fun b s =>
  .ok (a, b) s

/-- The address of the instruction after this one (10_state.md R17): a CPU prefix is one more parcel. -/
def nextPc (px : Bool) (parcels : Nat) (s : State) : Word :=
  s.pc + BitVec.ofNat 32 (2 * (parcels + if px then 1 else 0))

/-- A word operand of a monadic instruction (R130's modes 0xC to 0xF), for its address. -/
def monadicOperand (m : BitVec 4) (o : Word) : Operand := ⟨m, .long o⟩

/-- Words of the stack cache from a virtual address up. -/
def cellWords (va : Word) (n : Nat) (s : State) : List Word :=
  match n with
  | 0 => []
  | k + 1 => readCell va s :: cellWords (va + 4#32) k s

/-- Words of physical memory from an address up, in one block: no other master comes between them (20_memory.md R64,
60_exceptions.md R411). -/
def physWords (locked : Bool) (pa : Word) (n : Nat) (s : State) : Res (List Word) :=
  match n with
  | 0 => .ok [] s
  | k + 1 =>
    (physRead locked .ioBusFault pa s).bind fun w s =>
    (physWords true (pa + 4#32) k s).bind fun ws s =>
    .ok (w :: ws) s

/-- A block of data words from physical memory; the prefetch unit may read text before it. -/
def dataWords (pa : Word) (n : Nat) (s : State) : Res (List Word) :=
  (readAhead false s).bind fun _ s => physWords false pa n s

/-- The words a block transfer reads (20_memory.md R64): consecutive words, the lower address first. An aligned block
lies in one page and on one side of the stack cache's bounds (R70), so one translation serves it. -/
def readWords (acc : Access) (va : Word) (n : Nat) (s : State) : Res (List Word) :=
  (checkAccess va 4 s).bind fun _ s =>
  let (cached, s) := useCache acc va s
  if cached then .ok (cellWords va n s) s
  else (dataAddress false .read acc.user va s).bind fun pa s => dataWords pa n s

/-- The block store. A block the bus ends with BERR stops there and is reported once (60_exceptions.md R376, log 11). -/
def commitWords (g : Grant) (ws : List Word) (s : State) : State :=
  match ws with
  | [] => s
  | w :: rest =>
    match g with
    | .cell va => commitWords (.cell (va + 4#32)) rest (writeCell va w s)
    | .phys _ 0 => s.setWriteFaults (s.writeFaults + 1)
    | .phys pa (k + 1) => commitWords (.phys (pa + 4#32) k) rest (physStore pa 4 w s)

end Sys2Proof.Machine
end

