-- ==== Sys2Proof/Machine/Dyadic.lean ====
section
/-! DEFINITION. The two-operand instructions over their operations: the frame of spec/40_arithmetic.md R180, the
interlocked frame (R186), the compare frame (spec/41_compare.md R210), the tagged frame (spec/46_tagged.md R315), and the
moves (spec/43_move.md). The order of the checks is spec/60_exceptions.md R386's (log 38). -/

namespace Sys2Proof.Machine

/-- The PSW flags that storing to a place writes: all four for PSW itself (10_state.md R20). -/
def Place.flagsWritten (p : Place) : Word :=
  match p with
  | .register .psw => flagMask
  | _ => 0#32

/-- The data translations that storing to a place invalidates: all of them for STB (70_reset_and_hazards.md R447). -/
def Place.lostTlb (p : Place) (s : State) : List TlbEntry :=
  match p with
  | .register .stb => s.dataTlb
  | _ => []

/-- The same for the data NPSR. -/
def Place.lostNpsr (p : Place) (s : State) : Option Npsr :=
  match p with
  | .register .stb => s.dataNpsr
  | _ => none

/-- The sub-word result that storing `v` to a place truncates (70_reset_and_hazards.md R443). -/
def Place.truncated (p : Place) (v : Word) : Option Subword :=
  match p with
  | .memory _ va size isSigned => if extend size isSigned v = v then none else some ⟨va, size, v⟩
  | _ => none

/-- The hazard record of a completed dyadic instruction begun in `s0` that stored to `p`, in the state `s`, and wrote
the flags of `mask`. -/
def record (p : Place) (mask : Word) (sub : Option Subword) (s0 s : State) : Recent :=
  ⟨mask ||| p.flagsWritten, s0.psw, sub, none, p.lostTlb s, p.lostNpsr s⟩

/-- The last step of a dyadic instruction: the flags are written, and PC goes on. -/
def finish (target : Word) (r : Recent) (c : Calc) (s : State) : Res Unit := retire target r (s.setPsw (c.psw s.psw))

/-- The flags an instruction still writes after its store. Where its rule writes them before the store (40_arithmetic.md
R189, R191, 46_tagged.md R316, R317: `early`), a store in PSW has the last word on all four (10_state.md R20). -/
def Calc.afterStore (c : Calc) (early : Bool) (p : Place) : Calc :=
  if early && p.flagsWritten != 0#32 then { c with mask := 0#32 } else c

/-- ADD, SUB, MUL, DIV, REM, UDIV, UREM, AND, OR, XOR, SHL, SHR, USHR and their "3" forms (`toAcc`): 40_arithmetic.md
R180, 42_logical.md R220, 45_shift.md R300. A "3" form only reads its second operand and stores in the accumulator. -/
def runBinary (op : BinOp) (toAcc px : Bool) (f : Form) (s0 : State) : Res Unit :=
  let who : Reader := ⟨op.divides, if toAcc then 4 else modeSize px f.dst.mode⟩
  (openForm px (if toAcc then .reads else .updates) f s0).bind fun p s =>
  (readPlace who p.1 s).bind fun a s =>
  (readPlace who p.2 s).bind fun b s =>
  let goal := if toAcc then accPlace s else p.2
  (prepPlace false goal s).bind fun d s =>
  (raiseIf (goal.privileged s) .privilegeViolation s).bind fun _ s =>
  (raiseIf (op.traps && a == 0#32) .zeroDivide s).bind fun _ s =>
  (claimDest d s).bind fun d s =>
  let c := op.calc a b
  let r := c.value.getD 0#32
  finish (nextPc px f.parcels s0) (record goal c.mask (if op.leaks && !toAcc then goal.truncated r else none) s0 s)
    (c.afterStore op.flagsFirst goal) (storeDest d r s)

/-- ADDI, ANDI, ORI (40_arithmetic.md R186, 42_logical.md R223, R225): the destination is read and written in one locked
pair, then the old value goes to the accumulator. An accumulator store that faults leaves the destination written (U7,
log 31). A walk for the store comes after the locked fetch, under LOCK (DESIGN CHOICE, log 62), and the accumulator is
no larger destination of R443 (DESIGN CHOICE, log 23). -/
def runLock (op : LockOp) (px : Bool) (f : Form) (s0 : State) : Res Unit :=
  let who : Reader := ⟨false, modeSize px f.dst.mode⟩
  (openForm px .updates f s0).bind fun p s =>
  (readPlace who p.1 s).bind fun a s =>
  (readPlace who p.2 s).bind fun hidden s =>
  (prepPlace true p.2 s).bind fun d s =>
  (raiseIf (p.2.privileged s) .privilegeViolation s).bind fun _ s =>
  (claimDest d s).bind fun d s =>
  let r := record p.2 0#32 none s0 s
  let s := storeDest d (op.result a hidden) s
  (prepPlace false (accPlace s) s).bind fun acc s =>
  (claimDest acc s).bind fun acc s =>
  retire (nextPc px f.parcels s0) r (storeDest acc hidden s)

/-- CMPEQ, CMPGT, CMPHI (41_compare.md R210): both operands are only read; F alone is written. -/
def runCompare (op : CmpOp) (px : Bool) (f : Form) (s0 : State) : Res Unit :=
  let who : Reader := ⟨false, 0⟩
  (openForm px .reads f s0).bind fun p s =>
  (readPlace who p.1 s).bind fun a s =>
  (readPlace who p.2 s).bind fun b s =>
  let c := op.calc a b
  finish (nextPc px f.parcels s0) { quiet s0 with flags := c.mask } c s

/-- TADD, TSUB (46_tagged.md R315 to R318): the destination is read in every case and written only when F comes out 0;
a register destination is privileged in every case (60_exceptions.md R391). -/
def runTagged (op : TagOp) (px : Bool) (f : Form) (s0 : State) : Res Unit :=
  let who : Reader := ⟨false, modeSize px f.dst.mode⟩
  (openForm px .updates f s0).bind fun p s =>
  (readPlace who p.1 s).bind fun a s =>
  (readPlace who p.2 s).bind fun b s =>
  let c := op.calc a b
  match c.value with
  | none =>
    (raiseIf (p.2.privileged s) .privilegeViolation s).bind fun _ s =>
    finish (nextPc px f.parcels s0) { quiet s0 with flags := c.mask } c s
  | some r =>
    (prepPlace false p.2 s).bind fun d s =>
    (raiseIf (p.2.privileged s) .privilegeViolation s).bind fun _ s =>
    (claimDest d s).bind fun d s =>
    finish (nextPc px f.parcels s0) (record p.2 c.mask none s0 s) (c.afterStore true p.2) (storeDest d r s)

/-- MOV (43_move.md R240): the destination is not read. -/
def runMov (px : Bool) (f : Form) (s0 : State) : Res Unit :=
  let who : Reader := ⟨false, modeSize px f.dst.mode⟩
  (openForm px .writes f s0).bind fun p s =>
  (readPlace who p.1 s).bind fun v s =>
  (prepPlace false p.2 s).bind fun d s =>
  (raiseIf (p.2.privileged s) .privilegeViolation s).bind fun _ s =>
  (claimDest d s).bind fun d s =>
  retire (nextPc px f.parcels s0) (record p.2 0#32 none s0 s) (storeDest d v s)

/-- Whether MOVA may have these operands (43_move.md R243): a word mode that is not immediate as source, and no
register. -/
def movaLegal (px : Bool) (f : Form) : Bool :=
  wordMode f.src.mode && !isImmediate f.src && legalMode px f.dst.mode && !isImmediate f.dst && !isRegister px f.dst

/-- The address an operand names (R243): only an indirect mode reads memory, for its pointer. -/
def effectiveAddress (o : Operand) (s : State) : Res Word :=
  match modeKind false o.mode with
  | some .absolute => .ok (o.field.address s) s
  | some .stack => .ok (stackAddress o s) s
  | some .indirect => memRead (stackAccess s) (stackAddress o s) 4 s
  | some .immediate => .ok o.field.value s
  | _ => .trap .illegalInstruction s

/-- Whether the pointer of an indirect operand is aligned (R142). -/
def pointerAligned (o : Operand) (s : State) : Bool :=
  match modeKind false o.mode with
  | some .indirect => aligned (stackAddress o s) 4
  | _ => true

/-- MOVA (R243): the source's address is stored; the source itself is never accessed. -/
def runMova (px : Bool) (f : Form) (s0 : State) : Res Unit :=
  let m := modeSize px f.dst.mode
  (raiseIf (!movaLegal px f) .illegalInstruction s0).bind fun _ s =>
  (raiseIf (!pointerAligned f.src s || !staticAligned px m f.dst s) .alignmentFault s).bind fun _ s =>
  (effectiveAddress f.src s).bind fun ea s =>
  (locate px m f.dst s).bind fun p s =>
  (prepPlace false p s).bind fun d s =>
  (claimDest d s).bind fun d s =>
  retire (nextPc px f.parcels s0) (quiet s0) (storeDest d ea s)

/-- How many words DQM moves (43_move.md R246): two for the destination modes 0x0, 0x4, 0x8, four for 0xC, 0xD, 0xE;
`none` for the others. After a CPU prefix the first three are illegal (30_encoding.md R132). -/
def dqmWords (px : Bool) (dm : BitVec 4) : Option Nat :=
  match dm.toNat with
  | 0x0 => if px then none else some 2
  | 0x4 => if px then none else some 2
  | 0x8 => if px then none else some 2
  | 0xC => some 4
  | 0xD => some 4
  | 0xE => some 4
  | _ => none

/-- The words DQM moves: an immediate is replicated, else the block at the source. -/
def dqmSource (p : Place) (n : Nat) (s : State) : Res (List Word) :=
  match p with
  | .constant v => .ok (List.replicate n v) s
  | .memory acc va _ _ => readWords acc va n s
  | .register _ => .trap .illegalInstruction s

/-- The destination block of DQM: an aligned block lies in one page and on one side of the stack cache's bounds
(20_memory.md R70), so one translation serves it. -/
def dqmTarget (p : Place) (n : Nat) (s : State) : Res Grant :=
  match p with
  | .memory acc va _ _ => (prepWrite acc va 4 s).bind fun t s => claim acc t n s
  | _ => .trap .illegalInstruction s

/-- DQM (43_move.md R246): two or four consecutive words, aligned to the whole block; every source word is read before
any destination word is written. -/
def runDqm (px : Bool) (f : Form) (s0 : State) : Res Unit :=
  match dqmWords px f.dst.mode with
  | none => .trap .illegalInstruction s0
  | some n =>
    (raiseIf (!wordMode f.src.mode) .illegalInstruction s0).bind fun _ s =>
    (raiseIf (!staticAligned px (4 * n) f.src s || !staticAligned px (4 * n) f.dst s) .alignmentFault s).bind fun _ s =>
    (locate px (4 * n) f.src s).bind fun a s =>
    (locate px (4 * n) f.dst s).bind fun b s =>
    (dqmSource a n s).bind fun ws s =>
    (dqmTarget b n s).bind fun t s =>
    retire (nextPc px f.parcels s0) (quiet s0) (commitWords t ws s)

/-- An unimplemented three- or five-parcel dyadic (30_encoding.md R160, R161): its modes are tested only after a CPU
prefix (47_other.md R326), each on its own (DESIGN CHOICE, log 61: R161 names no illegal combination); its operands are
not evaluated. -/
def runUnimplementedDyadic (px : Bool) (f : Form) (s : State) : Res Unit :=
  (raiseIf (px && (!legalMode px f.src.mode || !legalMode px f.dst.mode)) .illegalInstruction s).bind fun _ s =>
  unimplementedSequence 12#32 s

end Sys2Proof.Machine
end

