-- ==== Sys2Proof/Machine/Frames.lean ====
section
/-! DEFINITION. Jumps, calls, frames, the stack cache's transfers, kernel entry and exit
(spec/44_program_control.md), LDRAA (spec/43_move.md R245), and the one-operand and no-operand instructions of
spec/47_other.md, over their operands. -/

namespace Sys2Proof.Machine

/-- A monadic instruction with a nonword mode is illegal (30_encoding.md R161). -/
def checkMonadic (m : BitVec 4) (s : State) : Res Unit := raiseIf (!wordMode m) .illegalInstruction s

/-- The target a control-flow operand names (30_encoding.md R133): absolute indirect, stack offset indirect,
PC-relative (R147: the base is the instruction itself), absolute. Alignment of the indirection word first. -/
def flowTarget (m : BitVec 4) (o : Word) (s : State) : Res Word :=
  match m.toNat with
  | 0xC => memRead (plainAccess s) o 4 s
  | 0xD => memRead (stackAccess s) (csp s + o) 4 s
  | 0xE => .ok (s.pc + o) s
  | 0xF => .ok o s
  | _ => .trap .illegalInstruction s

/-- Whether the indirection word of a control-flow operand is aligned. -/
def flowAligned (m : BitVec 4) (o : Word) (s : State) : Bool :=
  match m.toNat with
  | 0xC => aligned o 4
  | 0xD => aligned (csp s + o) 4
  | _ => true

/-- JMP (R270). -/
def runJmp (m : BitVec 4) (o : Word) (s0 : State) : Res Unit :=
  (checkMonadic m s0).bind fun _ s =>
  (flowTarget m o s).bind fun t s =>
  retire t (quiet s0) s

/-- JMPFN, JMPFY (`sense` false), JMPTN, JMPTY (`sense` true) (R271 to R275): no indirect mode (D25); the prediction
does not matter. -/
def runJmpIf (sense px : Bool) (m : BitVec 4) (o : Word) (parcels : Nat) (s0 : State) : Res Unit :=
  (raiseIf (!(m == 0xE#4 || m == 0xF#4)) .illegalInstruction s0).bind fun _ s =>
  (flowTarget m o s).bind fun t s =>
  retire (if s.psw.getLsbD flagF = sense then t else nextPc px parcels s0) (quiet s0) s

/-- CALL (R261): the return address is stored at the CSP before an indirection word is read. -/
def runCall (px : Bool) (m : BitVec 4) (o : Word) (parcels : Nat) (s0 : State) : Res Unit :=
  (checkMonadic m s0).bind fun _ s =>
  (raiseIf (!flowAligned m o s) .alignmentFault s).bind fun _ s =>
  (memWrite (stackAccess s) (csp s) 4 (nextPc px parcels s0) s).bind fun _ s =>
  (flowTarget m o s).bind fun t s =>
  retire t (quiet s0) s

/-- LDRAA (43_move.md R245): the jump target goes to the accumulator. -/
def runLdraa (px : Bool) (m : BitVec 4) (o : Word) (parcels : Nat) (s0 : State) : Res Unit :=
  (checkMonadic m s0).bind fun _ s =>
  (flowTarget m o s).bind fun t s =>
  (prepPlace false (accPlace s) s).bind fun d s =>
  (claimDest d s).bind fun d s =>
  retire (nextPc px parcels s0) (quiet s0) (storeDest d t s)

/-- RETURN and POPN take a stack offset that is not negative (R276, R274). -/
def popLegal (m : BitVec 4) (o : Word) : Bool := m == 0xD#4 && !o.getLsbD 31

/-- The CSP rises over a frame, SHAD with it; when SP passes MSP the stack cache becomes empty (R276, R274). -/
def popFrame (off : Word) (s : State) : State :=
  let s := setCsp (csp s + quadAlign off) s
  if pswCSP s.psw && decide (s.msp < s.sp) then s.setMsp s.sp else s

/-- The hazard record of ENTER, RETURN and POPN begun in `s0` that leave `s`: SHAD before and after
(70_reset_and_hazards.md R444). -/
def movedShad (s0 s : State) : Recent := { quiet s0 with shadMove := some ⟨s0.shad, s.shad⟩ }

/-- RETURN (R276). -/
def runReturn (m : BitVec 4) (o : Word) (s0 : State) : Res Unit :=
  (raiseIf (!popLegal m o) .illegalInstruction s0).bind fun _ s =>
  (memRead (stackAccess s) (csp s + o) 4 s).bind fun t s =>
  let s := popFrame o s
  retire t (movedShad s0 s) s

/-- POPN (R274). -/
def runPopn (px : Bool) (m : BitVec 4) (o : Word) (parcels : Nat) (s0 : State) : Res Unit :=
  (raiseIf (!popLegal m o) .illegalInstruction s0).bind fun _ s =>
  let s := popFrame o s
  retire (nextPc px parcels s0) (movedShad s0 s) s

/-- The target of ENTER and CATCH (R266, R263): the address of a stack offset, an immediate, or the word a stack offset
indirect or absolute operand reads. -/
def frameTarget (m : BitVec 4) (o : Word) (s : State) : Res Word :=
  match m.toNat with
  | 0xC => memRead (plainAccess s) o 4 s
  | 0xD => .ok (csp s + o) s
  | 0xE => memRead (stackAccess s) (csp s + o) 4 s
  | 0xF => .ok o s
  | _ => .trap .illegalInstruction s

/-- The advance validity check of ENTER and CATCH (R266, R263): a write translation at the current level, whose
failure is a read fault. -/
def checkStore (a : Word) (s : State) : Res Unit :=
  match dataAddress false .write (pswX s.psw) a s with
  | .ok _ s => .ok () s
  | .trap (.dataWriteFault va) s => .trap (.dataReadFault va) s
  | .trap t s => .trap t s
  | .halt e => .halt e
  | .refuse e => .refuse e

/-- Write the highest quad of the stack cache to memory and lower MSP over it (R266, 20_memory.md R79): a data write at
the current level. -/
def flushQuad (s : State) : Res Unit :=
  let a := s.msp - 16#32
  (dataAddress false .write (pswX s.psw) a s).bind fun pa s =>
  (claim (plainAccess s) (.phys pa) 4 s).bind fun g s =>
  .ok () ((commitWords g (cellWords a 4 s) s).setMsp a)

/-- Flush quads while MSP is above SP and, when a target is given, further than SCSIZE above it (R266); `fuel` bounds
the number of quads. The distance is modulo 2^32 (DESIGN CHOICE, log 63). -/
def flushQuads (target : Option Word) (fuel : Nat) (s : State) : Res Unit :=
  match fuel with
  | 0 => .ok () s
  | k + 1 =>
    let more := match target with
      | none => true
      | some t => decide (scSize < (s.msp - t).toNat)
    if s.msp ≠ s.sp ∧ more = true then (flushQuad s).bind fun _ s => flushQuads target k s
    else .ok () s

/-- How many quads the stack cache's window holds. -/
def windowQuads (s : State) : Nat := (s.msp.toNat - s.sp.toNat) / 16

/-- Write four words to the stack cache at a quad address. -/
def loadQuad (a : Word) (ws : List Word) (s : State) : State := commitWords (.cell a) ws s

/-- Read a quad from memory, as data, for the stack cache (20_memory.md R79): the cache is not consulted. -/
def memoryQuad (user : Bool) (a : Word) (s : State) : Res (List Word) :=
  (dataAddress false .read user a s).bind fun pa s => dataWords pa 4 s

/-- The quads of [a, a + 16 * n) from memory into the stack cache. -/
def fillQuads (user : Bool) (a : Word) (n : Nat) (s : State) : Res Unit :=
  match n with
  | 0 => .ok () s
  | k + 1 =>
    (memoryQuad user a s).bind fun ws s =>
    fillQuads user (a + 16#32) k (loadQuad a ws s)

/-- CATCH's loop (R263): while MSP is below the target and the cache has room, check the new MSP, load the quad below it
and raise MSP. -/
def catchQuads (target : Word) (fuel : Nat) (s : State) : Res Unit :=
  match fuel with
  | 0 => .ok () s
  | k + 1 =>
    if s.msp < target ∧ (s.msp - s.sp).toNat < scSize then
      (checkStore (s.msp + 16#32) s).bind fun _ s =>
      (memoryQuad (pswX s.psw) s.msp s).bind fun ws s =>
      catchQuads target k ((loadQuad s.msp ws s).setMsp (s.msp + 16#32))
    else .ok () s

/-- ENTER and CATCH on SP need MSP >= SP (R266, R263, U2, log 26). -/
def checkFrame (s : State) : Res Unit :=
  if pswCSP s.psw && decide (s.msp < s.sp) then .refuse .stackCacheUnpredictable else .ok () s

/-- CATCH (R263): a no-op when the CSP is the ISP. -/
def runCatch (px : Bool) (m : BitVec 4) (o : Word) (parcels : Nat) (s0 : State) : Res Unit :=
  (checkMonadic m s0).bind fun _ s =>
  if !pswCSP s.psw then retire (nextPc px parcels s0) (quiet s0) s
  else
    (checkFrame s).bind fun _ s =>
    (frameTarget m o s).bind fun t s =>
    (catchQuads t 16 s).bind fun _ s =>
    retire (nextPc px parcels s0) (quiet s0) s

/-- With the stack cache disabled and SP ≠ MSP (U3, log 27), or enabled with a window that is not usable (U2, log 26),
what ENTER flushes is not known. -/
def unknownCells (s : State) : State :=
  if (if configSC s.configEff then !windowOk s else s.sp != s.msp) then scrambleCells (fun _ => true) s else s

/-- Whether cell `i` holds an address of the `len` bytes from `base` up. -/
def cellWithin (base : Word) (len : Nat) (i : Fin 64) : Bool :=
  decide ((BitVec.ofNat 32 (4 * i.val) - base).toNat % scSize < len)

/-- The cells a stack-offset ENTER exposes hold nothing known (R266, 20_memory.md R76, U23, log 35). -/
def exposeCells (target sp : Word) (s : State) : State :=
  scrambleCells (cellWithin target (min (sp - target).toNat scSize)) s

/-- The end of ENTER: the enter guard is set (R266, D5). -/
def enterDone (target : Word) (s0 s : State) : Res Unit :=
  retire target { movedShad s0 s with flags := flagBit flagE true } (s.setPsw (putBit s.psw flagE true))

/-- ENTER when the CSP is the ISP (R266). -/
def enterIsp (next target : Word) (s0 s : State) : Res Unit :=
  (checkStore target s).bind fun _ s => enterDone next s0 (setCsp target s)

/-- ENTER to a target that is not a stack offset (R266): the whole cache is flushed and left empty. -/
def enterEmpty (next target : Word) (s0 s : State) : Res Unit :=
  (flushQuads none (windowQuads s) (unknownCells s)).bind fun _ s =>
  (checkStore target s).bind fun _ s =>
  enterDone next s0 ((setCsp target s).setMsp target)

/-- ENTER by a stack offset (R266): only as much is flushed as the new frame needs; a MSP further than SCSIZE above the
target comes down to it. A failed check leaves the flushed quads flushed and MSP where the loop left it (log 37). How
far MSP is above the target is taken modulo 2^32, also where the frame wraps below address 0 (DESIGN CHOICE, log 63:
the rule compares MSP with target + SCSIZE and does not say what happens there). -/
def enterOffset (next target : Word) (s0 s : State) : Res Unit :=
  (flushQuads (some target) (windowQuads s) (unknownCells s)).bind fun _ s =>
  let msp := if scSize < (s.msp - target).toNat then target + 256#32 else s.msp
  (checkStore target s).bind fun _ s =>
  (if msp = s0.msp then .ok () s else checkStore msp s).bind fun _ s =>
  enterDone next s0 (exposeCells target s0.sp ((setCsp target s).setMsp msp))

/-- The data translations that the last two instructions invalidated and that are not loaded again (R447). -/
def lostEntries (window : List Recent) (tlb : List TlbEntry) : List TlbEntry :=
  (window.flatMap fun r => r.lostTlb).filter fun e => (findTlb e.page tlb).isNone

/-- Before ENTER, translations invalidated by the last two instructions may still be in use (70_reset_and_hazards.md
R447, log 25): a free choice of them is put back. -/
def restoreLost (s : State) : List TlbEntry × Option Npsr × State :=
  let (es, s) := drawSublist (lostEntries s.recent s.dataTlb) s
  let s := s.setDataTlb (es ++ s.dataTlb)
  match s.dataNpsr, (s.recent.filterMap fun r => r.lostNpsr).head? with
  | none, some n =>
    let (b, s) := drawBit s
    if b then (es, some n, s.setDataNpsr (some n)) else (es, none, s)
  | _, _ => (es, none, s)

/-- After ENTER those translations are gone. -/
def dropLost (es : List TlbEntry) (n : Option Npsr) (s : State) : State :=
  let s := s.setDataTlb (s.dataTlb.filter fun e => !es.contains e)
  if n.isSome && s.dataNpsr == n then s.setDataNpsr none else s

/-- A change of the state that a part leaves, whether it completes or raises an event. -/
def Res.after {α : Type} (r : Res α) (f : State → State) : Res α :=
  match r with
  | .ok a s => .ok a (f s)
  | .trap t s => .trap t (f s)
  | .halt e => .halt e
  | .refuse e => .refuse e

/-- ENTER's operand checks (R266): modes, a stack offset that is not negative, and the offsets the three-parcel form
must not have (U8, log 32). -/
def checkEnter (m : BitVec 4) (o : Word) (parcels : Nat) (s : State) : Res Unit :=
  if !wordMode m || (m == 0xD#4 && !o.getLsbD 31) then .trap .illegalInstruction s
  else if parcels == 3 && m == 0xD#4 && decide (-256 ≤ signed o) then .refuse .enterOffsetTooSmall
  else .ok () s

/-- ENTER once its operands are legal (R266), with the translations the last two instructions invalidated restored or
not: every translation it makes is under that choice (70_reset_and_hazards.md R447). -/
def enterWith (next : Word) (m : BitVec 4) (o : Word) (s0 s : State) : Res Unit :=
  (frameTarget m o s).bind fun v s =>
  let target := quadAlign v
  if !pswCSP s.psw then enterIsp next target s0 s
  else if m == 0xD#4 then enterOffset next target s0 s
  else enterEmpty next target s0 s

/-- ENTER (R266). -/
def runEnter (px : Bool) (m : BitVec 4) (o : Word) (parcels : Nat) (s0 : State) : Res Unit :=
  (checkEnter m o parcels s0).bind fun _ s =>
  (checkFrame s).bind fun _ s =>
  let (es, n, s) := restoreLost s
  (enterWith (nextPc px parcels s0) m o s0 s).after (dropLost es n)

/-- The value of a word operand (30_encoding.md R130, R146), for KCALL. -/
def wordOperand (m : BitVec 4) (o : Word) (s : State) : Res Word :=
  (raiseIf (!staticAligned false 4 (monadicOperand m o) s) .alignmentFault s).bind fun _ s =>
  (locate false 4 (monadicOperand m o) s).bind fun p s =>
  readPlace ⟨false, 0⟩ p s

/-- KCALL (R277): the operand, the next PC and PSW go to the interrupt stack, and the kernel is entered through VB + 0;
there is no SHAD step (D30). -/
def runKcall (px : Bool) (m : BitVec 4) (o : Word) (parcels : Nat) (s0 : State) : Res Unit :=
  (checkMonadic m s0).bind fun _ s =>
  (wordOperand m o s).bind fun v s =>
  (sequenceWrite (s.isp - 12#32) v s).bind fun _ s =>
  (pushFrame (nextPc px parcels s0) s).bind fun _ s =>
  (enterKernel s.vb s).bind fun _ s =>
  retire s.pc { quiet s0 with flags := flagMask } s

/-- KRET (R278). -/
def runKret (s : State) : Res Unit :=
  (raiseIf (pswX s.psw) .privilegeViolation s).bind fun _ s =>
  (sequenceRead (s.isp + 8#32) s).bind fun t s =>
  (sequenceRead (s.isp + 12#32) s).bind fun p s =>
  leaveKernel t p s

/-- A change of the state that a failed part leaves. -/
def Res.onTrap {α : Type} (r : Res α) (f : State → State) : Res α :=
  match r with
  | .trap t s => .trap t (f s)
  | r => r

/-- How many quads a stack cache window that begins at `sp` can hold below 2^32, at most 16 (10_state.md R47). -/
def quadsAbove (sp : Word) : Nat := min 16 ((4294967295 - sp.toNat) / 16)

/-- MSP after a failed fill (U10, log 34): any value with base <= MSP <= base + 256 for the SP that the handler finds
(`base`), since only writes of SP or MSP and a bad frame break that (R47, U2); any value at all where the frame's own SP
and MSP are not such values. -/
def abandonedMsp (base sp msp : Word) (s : State) : Word × State :=
  if sp.toNat ≤ msp.toNat ∧ msp.toNat ≤ sp.toNat + scSize then
    let (k, s) := drawBelow (quadsAbove base + 1) s
    (base + BitVec.ofNat 32 (16 * k), s)
  else
    let (w, s) := drawWord s
    (quadAlign w, s)

/-- What a failed fill of CRET leaves (R264, U10, log 34): SP is the new one; MSP is free and the stack cache holds
nothing known; the addressing mode is the one before. Where SP is the CSP of CRET itself, the SHAD step of the exception
(60_exceptions.md R361) puts SP back, so MSP goes with SHAD's value (DESIGN CHOICE, log 34: U10 leaves MSP open). -/
def abandonFill (sp msp : Word) (vp : Bool) (s : State) : State :=
  let base := if pswCSP s.psw then s.shad else sp
  let (w, s) := abandonedMsp base sp msp ((s.setSp sp).setVpEff vp)
  scrambleCells (fun _ => true) (s.setMsp w)

/-- CRET's second part (R264): the old contents are discarded, and when the restored CSP is SP the quads from SP up to
the new MSP are loaded at kernel level (D23) under the restored addressing mode. -/
def cretFill (sp msp psw : Word) (s : State) : Res Unit :=
  if pswCSP psw then
    ((fillQuads false sp ((msp.toNat - sp.toNat) / 16) (s.setVpEff (pswVP psw))).onTrap (abandonFill sp msp s.vpEff)).bind
      fun _ s' => .ok () (s'.setVpEff s.vpEff)
  else .ok () (scrambleCells (fun _ => true) s)

/-- CRET (R264): SP, MSP and PSW are read from the frame, the cache is filled, then MSP is loaded, PC is read and all
are loaded. The frame must not lie in the stack cache (20_memory.md R78); its first words are read under the window from
before CRET, PC under the new one (log 34). -/
def runCret (s : State) : Res Unit :=
  (raiseIf (pswX s.psw) .privilegeViolation s).bind fun _ s =>
  (sequenceRead s.isp s).bind fun w s =>
  let sp := quadAlign w
  ((sequenceRead (s.isp + 4#32) s).onTrap (State.setSp · sp)).bind fun m s =>
  ((sequenceRead (s.isp + 12#32) s).onTrap (State.setSp · sp)).bind fun p s =>
  let msp := quadAlign m
  (cretFill sp msp p s).bind fun _ s =>
  let s := (s.setSp sp).setMsp msp
  (sequenceRead (s.isp + 8#32) s).bind fun t s =>
  leaveKernel t p s

/-- NOP (47_other.md R327). -/
def runNop (s : State) : Res Unit := retire (s.pc + 2#32) (quiet s) s

/-- TESTC, TESTV (R328, R329): F takes the flag at bit `i`, which becomes 0. -/
def runTest (i : Nat) (s : State) : Res Unit :=
  retire (s.pc + 2#32) { quiet s with flags := flagBit flagF true ||| flagBit i true }
    (s.setPsw (putBit (putBit s.psw flagF (s.psw.getLsbD i)) i false))

/-- CLRE (R330). -/
def runClre (s : State) : Res Unit :=
  retire (s.pc + 2#32) { quiet s with flags := flagBit flagE true } (s.setPsw (putBit s.psw flagE false))

/-- FLUSHI (R335): the instruction cache supplies nothing earlier any more. -/
def runFlushi (s : State) : Res Unit := retire (s.pc + 2#32) (quiet s) ((s.setIcStale []).setTextMaps [])

/-- FLUSHP (R336): the prefetch buffer holds nothing, and supplies nothing earlier any more. -/
def runFlushp (s : State) : Res Unit := retire (s.pc + 2#32) (quiet s) ((s.setPfbStale []).setPfbQuads [])

/-- The address a flush operand names (R339): what MOVA would store, an immediate naming itself (D32, log 43). -/
def flushOperand (m : BitVec 4) (o : Word) (s : State) : Res Word :=
  (raiseIf (!pointerAligned (monadicOperand m o) s) .alignmentFault s).bind fun _ s =>
  effectiveAddress (monadicOperand m o) s

/-- FLUSHPTE (R338). -/
def runFlushpte (px : Bool) (m : BitVec 4) (o : Word) (parcels : Nat) (s0 : State) : Res Unit :=
  (checkMonadic m s0).bind fun _ s =>
  (flushOperand m o s).bind fun a s =>
  retire (nextPc px parcels s0)
    { quiet s0 with lostTlb := s.dataTlb.filter fun e => e.page == pageOf a, lostNpsr := s.dataNpsr }
    (flushPage a s)

/-- The prefetch buffer without the quad word at a physical address (R337). -/
def dropQuad (pa : Word) (xs : List StaleParcel) : List StaleParcel :=
  xs.filter fun e => quadAlign e.addr != quadAlign pa

/-- The physical address FLUSHPBE means; the prefetch unit may read text before the walk for it. -/
def flushTarget (va : Word) (s : State) : Res (Option Word) :=
  (if s.vpEff then readAhead false s else .ok () s).bind fun _ s => flushAddress va s

/-- FLUSHPBE (R337). -/
def runFlushpbe (px : Bool) (m : BitVec 4) (o : Word) (parcels : Nat) (s0 : State) : Res Unit :=
  (checkMonadic m s0).bind fun _ s =>
  (flushOperand m o s).bind fun a s =>
  (flushTarget (quadAlign a) s).bind fun pa s =>
  retire (nextPc px parcels s0) (quiet s0)
    (match pa with
     | some pa => (s.setPfbStale (dropQuad pa s.pfbStale)).setPfbQuads (s.pfbQuads.filter fun q => q != quadAlign pa)
     | none => s)

/-- An unimplemented monadic, FLUSHDCE among them (R334, 30_encoding.md R161). -/
def runUnimplementedMonadic (m : BitVec 4) (s : State) : Res Unit :=
  (checkMonadic m s).bind fun _ s => unimplementedSequence 12#32 s

end Sys2Proof.Machine
end

