-- ==== Sys2Proof/Machine/Forms.lean ====
section
/-! DEFINITION. Every instruction as an operation on operands (spec/30_encoding.md R124, R125, R127, R140, R156: the
short forms are abbreviations), and the meaning of an operation. -/

namespace Sys2Proof.Machine

/-- A three-parcel dyadic's operands (R125). -/
def form16 (sm dm : BitVec 4) (src dst : BitVec 16) : Form := ⟨⟨sm, .short src⟩, ⟨dm, .short dst⟩, 3⟩

/-- A five-parcel dyadic's operands (R127). -/
def form32 (sm dm : BitVec 4) (src dst : Word) : Form := ⟨⟨sm, .long src⟩, ⟨dm, .long dst⟩, 5⟩

/-- A one-parcel dyadic's operands (R124, R140). -/
def formShort (src dst : Operand) : Form := ⟨src, dst, 1⟩

/-- imm5: a sign-extended constant (R124). -/
def imm5 (f : BitVec 5) : Operand := ⟨0xF#4, .long (f.signExtend 32)⟩

/-- uimm5: a zero-extended constant (R124). -/
def uimm5 (f : BitVec 5) : Operand := ⟨0xF#4, .long (f.setWidth 32)⟩

/-- wai5: four times a zero-extended constant (R124). -/
def wai5 (f : BitVec 5) : Operand := ⟨0xF#4, .long (f.setWidth 32 <<< 2)⟩

/-- stk5: the word at a stack offset of four times the field (R124). -/
def stk5 (f : BitVec 5) : Operand := ⟨0xD#4, .long (f.setWidth 32 <<< 2)⟩

/-- istk5: the word that the word at that stack offset points to (R124). -/
def istk5 (f : BitVec 5) : Operand := ⟨0xE#4, .long (f.setWidth 32 <<< 2)⟩

/-- imm10: four times the zero-extended field (R124). -/
def imm10 (f : BitVec 10) : Word := f.setWidth 32 <<< 2

/-- stk8 of CATCH, POPN and RETURN: sixteen times the zero-extended field (R124). -/
def stk8 (f : BitVec 8) : Word := f.setWidth 32 <<< 4

/-- stk8 of ENTER: sixteen times the one-filled field (R124). -/
def enterOffset8 (f : BitVec 8) : Word := (0xFFFFFF#24 ++ f) <<< 4

/-- The dyadic operations. -/
inductive DyOp where
  | binary (op : BinOp) (toAcc : Bool)
  | lock (op : LockOp)
  | compare (op : CmpOp)
  | tagged (op : TagOp)
  | mov
  | mova
  | dqm
  | unimplemented
  deriving DecidableEq, Repr

/-- The monadic operations. -/
inductive MonOp where
  | kcall
  | call
  | ret
  | jmp
  | jmpIf (sense : Bool)
  | catching
  | enter
  | ldraa
  | flushpte
  | flushpbe
  | popn
  | unimplemented
  deriving DecidableEq, Repr

/-- The niladic operations. -/
inductive NilOp where
  | kret
  | nop
  | flushi
  | flushp
  | cret
  | testv
  | testc
  | clre
  | unimplemented
  | trapped
  deriving DecidableEq, Repr

/-- An operation with its operands (R156). -/
inductive View where
  | dyadic (op : DyOp) (f : Form)
  | monadic (op : MonOp) (m : BitVec 4) (o : Word) (parcels : Nat)
  | niladic (op : NilOp)
  deriving DecidableEq, Repr

/-- What a dyadic operation does. `px`: a CPU prefix stands before it. -/
def DyOp.run (op : DyOp) (px : Bool) (f : Form) (s : State) : Res Unit :=
  match op with
  | .binary op toAcc => runBinary op toAcc px f s
  | .lock op => runLock op px f s
  | .compare op => runCompare op px f s
  | .tagged op => runTagged op px f s
  | .mov => runMov px f s
  | .mova => runMova px f s
  | .dqm => runDqm px f s
  | .unimplemented => runUnimplementedDyadic px f s

/-- What a monadic operation does. -/
def MonOp.run (op : MonOp) (px : Bool) (m : BitVec 4) (o : Word) (parcels : Nat) (s : State) : Res Unit :=
  match op with
  | .kcall => runKcall px m o parcels s
  | .call => runCall px m o parcels s
  | .ret => runReturn m o s
  | .jmp => runJmp m o s
  | .jmpIf sense => runJmpIf sense px m o parcels s
  | .catching => runCatch px m o parcels s
  | .enter => runEnter px m o parcels s
  | .ldraa => runLdraa px m o parcels s
  | .flushpte => runFlushpte px m o parcels s
  | .flushpbe => runFlushpbe px m o parcels s
  | .popn => runPopn px m o parcels s
  | .unimplemented => runUnimplementedMonadic m s

/-- What a niladic operation does. -/
def NilOp.run (op : NilOp) (s : State) : Res Unit :=
  match op with
  | .kret => runKret s
  | .nop => runNop s
  | .flushi => runFlushi s
  | .flushp => runFlushp s
  | .cret => runCret s
  | .testv => runTest flagV s
  | .testc => runTest flagC s
  | .clre => runClre s
  | .unimplemented => unimplementedSequence 12#32 s
  | .trapped => unimplementedSequence 8#32 s

/-- What an operation does. -/
def View.run (v : View) (px : Bool) (s : State) : Res Unit :=
  match v with
  | .dyadic op f => op.run px f s
  | .monadic op m o parcels => op.run px m o parcels s
  | .niladic op => op.run s

/-- An unprefixed instruction as an operation on operands (R156). -/
def viewOf (i : Instr) : Option View :=
  match i with
  | .cpuWide _ => none
  | .cpuShort _ => none
  | .kcallImm10 f => some (.monadic .kcall 0xF#4 (imm10 f) 1)
  | .callPc10 f => some (.monadic .call 0xE#4 (pcrel10 f) 1)
  | .enterStk8 f => some (.monadic .enter 0xD#4 (enterOffset8 f) 1)
  | .catchStk8 f => some (.monadic .catching 0xD#4 (stk8 f) 1)
  | .returnStk8 f => some (.monadic .ret 0xD#4 (stk8 f) 1)
  | .popnStk8 f => some (.monadic .popn 0xD#4 (stk8 f) 1)
  | .jmpPc10 f => some (.monadic .jmp 0xE#4 (pcrel10 f) 1)
  | .jmpfnPc10 f => some (.monadic (.jmpIf false) 0xE#4 (pcrel10 f) 1)
  | .jmpfyPc10 f => some (.monadic (.jmpIf false) 0xE#4 (pcrel10 f) 1)
  | .jmptnPc10 f => some (.monadic (.jmpIf true) 0xE#4 (pcrel10 f) 1)
  | .jmptyPc10 f => some (.monadic (.jmpIf true) 0xE#4 (pcrel10 f) 1)
  | .unimpOne08 _ => some (.niladic .unimplemented)
  | .unimpOne09 _ => some (.niladic .unimplemented)
  | .movWS s d => some (.dyadic .mov (formShort (wai5 s) (stk5 d)))
  | .kret => some (.niladic .kret)
  | .nop => some (.niladic .nop)
  | .flushi => some (.niladic .flushi)
  | .flushp => some (.niladic .flushp)
  | .cret => some (.niladic .cret)
  | .flushd => some (.niladic .unimplemented)
  | .testv => some (.niladic .testv)
  | .testc => some (.niladic .testc)
  | .clre => some (.niladic .clre)
  | .unimpNil007 => some (.niladic .unimplemented)
  | .unimpNil00B => some (.niladic .unimplemented)
  | .unimpNil00C _ => some (.niladic .unimplemented)
  | .unimpNil010 _ => some (.niladic .unimplemented)
  | .unimpNil020 _ => some (.niladic .unimplemented)
  | .unimpNil040 _ => some (.niladic .unimplemented)
  | .unimpNil080 _ => some (.niladic .unimplemented)
  | .unimpNil100 _ => some (.niladic .unimplemented)
  | .trappedNiladic _ => some (.niladic .trapped)
  | .unimpOne0C _ => some (.niladic .unimplemented)
  | .add3WS s d => some (.dyadic (.binary .add true) (formShort (wai5 s) (stk5 d)))
  | .and3CS s d => some (.dyadic (.binary .and true) (formShort (imm5 s) (stk5 d)))
  | .andSS s d => some (.dyadic (.binary .and false) (formShort (stk5 s) (stk5 d)))
  | .cmpeqCS s d => some (.dyadic (.compare .eq) (formShort (imm5 s) (stk5 d)))
  | .cmpgtSS s d => some (.dyadic (.compare .gt) (formShort (stk5 s) (stk5 d)))
  | .cmpgtCS s d => some (.dyadic (.compare .gt) (formShort (imm5 s) (stk5 d)))
  | .cmpeqSS s d => some (.dyadic (.compare .eq) (formShort (stk5 s) (stk5 d)))
  | .addCS s d => some (.dyadic (.binary .add false) (formShort (imm5 s) (stk5 d)))
  | .add3CS s d => some (.dyadic (.binary .add true) (formShort (imm5 s) (stk5 d)))
  | .addSS s d => some (.dyadic (.binary .add false) (formShort (stk5 s) (stk5 d)))
  | .add3SS s d => some (.dyadic (.binary .add true) (formShort (stk5 s) (stk5 d)))
  | .movSS s d => some (.dyadic .mov (formShort (stk5 s) (stk5 d)))
  | .movIS s d => some (.dyadic .mov (formShort (istk5 s) (stk5 d)))
  | .movSI s d => some (.dyadic .mov (formShort (stk5 s) (istk5 d)))
  | .movII s d => some (.dyadic .mov (formShort (istk5 s) (istk5 d)))
  | .movCS s d => some (.dyadic .mov (formShort (imm5 s) (stk5 d)))
  | .movaSS s d => some (.dyadic .mova (formShort (stk5 s) (stk5 d)))
  | .shl3CS s d => some (.dyadic (.binary .shl true) (formShort (uimm5 s) (stk5 d)))
  | .shr3CS s d => some (.dyadic (.binary .shr true) (formShort (uimm5 s) (stk5 d)))
  | .kcallW32 m o => some (.monadic .kcall m o 3)
  | .callF32 m o => some (.monadic .call m o 3)
  | .returnS32 m o => some (.monadic .ret m o 3)
  | .jmpF32 m o => some (.monadic .jmp m o 3)
  | .jmpfnA32 m o => some (.monadic (.jmpIf false) m o 3)
  | .jmpfyA32 m o => some (.monadic (.jmpIf false) m o 3)
  | .jmptnA32 m o => some (.monadic (.jmpIf true) m o 3)
  | .jmptyA32 m o => some (.monadic (.jmpIf true) m o 3)
  | .catchW32 m o => some (.monadic .catching m o 3)
  | .enterW32 m o => some (.monadic .enter m o 3)
  | .ldraaF32 m o => some (.monadic .ldraa m o 3)
  | .flushpteW32 m o => some (.monadic .flushpte m o 3)
  | .flushpbeW32 m o => some (.monadic .flushpbe m o 3)
  | .flushdceW32 m o => some (.monadic .unimplemented m o 3)
  | .unimpMonE m o => some (.monadic .unimplemented m o 3)
  | .popnS32 m o => some (.monadic .popn m o 3)
  | .unimpFive00 sm dm src dst => some (.dyadic .unimplemented (form32 sm dm src dst))
  | .oriG16 sm dm src dst => some (.dyadic (.lock .ori) (form16 sm dm src dst))
  | .oriG32 sm dm src dst => some (.dyadic (.lock .ori) (form32 sm dm src dst))
  | .andiG16 sm dm src dst => some (.dyadic (.lock .andi) (form16 sm dm src dst))
  | .andiG32 sm dm src dst => some (.dyadic (.lock .andi) (form32 sm dm src dst))
  | .addiG16 sm dm src dst => some (.dyadic (.lock .addi) (form16 sm dm src dst))
  | .addiG32 sm dm src dst => some (.dyadic (.lock .addi) (form32 sm dm src dst))
  | .movaG16 sm dm src dst => some (.dyadic .mova (form16 sm dm src dst))
  | .movaG32 sm dm src dst => some (.dyadic .mova (form32 sm dm src dst))
  | .uremG16 sm dm src dst => some (.dyadic (.binary .urem false) (form16 sm dm src dst))
  | .uremG32 sm dm src dst => some (.dyadic (.binary .urem false) (form32 sm dm src dst))
  | .movG16 sm dm src dst => some (.dyadic .mov (form16 sm dm src dst))
  | .movG32 sm dm src dst => some (.dyadic .mov (form32 sm dm src dst))
  | .dqmG16 sm dm src dst => some (.dyadic .dqm (form16 sm dm src dst))
  | .dqmG32 sm dm src dst => some (.dyadic .dqm (form32 sm dm src dst))
  | .unimpThree08 sm dm src dst => some (.dyadic .unimplemented (form16 sm dm src dst))
  | .unimpFive08 sm dm src dst => some (.dyadic .unimplemented (form32 sm dm src dst))
  | .unimpThree09 sm dm src dst => some (.dyadic .unimplemented (form16 sm dm src dst))
  | .unimpFive09 sm dm src dst => some (.dyadic .unimplemented (form32 sm dm src dst))
  | .unimpThree0A sm dm src dst => some (.dyadic .unimplemented (form16 sm dm src dst))
  | .unimpFive0A sm dm src dst => some (.dyadic .unimplemented (form32 sm dm src dst))
  | .unimpThree0B sm dm src dst => some (.dyadic .unimplemented (form16 sm dm src dst))
  | .unimpFive0B sm dm src dst => some (.dyadic .unimplemented (form32 sm dm src dst))
  | .taddG16 sm dm src dst => some (.dyadic (.tagged .tadd) (form16 sm dm src dst))
  | .taddG32 sm dm src dst => some (.dyadic (.tagged .tadd) (form32 sm dm src dst))
  | .tsubG16 sm dm src dst => some (.dyadic (.tagged .tsub) (form16 sm dm src dst))
  | .tsubG32 sm dm src dst => some (.dyadic (.tagged .tsub) (form32 sm dm src dst))
  | .unimpThree0E sm dm src dst => some (.dyadic .unimplemented (form16 sm dm src dst))
  | .unimpFive0E sm dm src dst => some (.dyadic .unimplemented (form32 sm dm src dst))
  | .unimpThree0F sm dm src dst => some (.dyadic .unimplemented (form16 sm dm src dst))
  | .unimpFive0F sm dm src dst => some (.dyadic .unimplemented (form32 sm dm src dst))
  | .unimpThree10 sm dm src dst => some (.dyadic .unimplemented (form16 sm dm src dst))
  | .unimpFive10 sm dm src dst => some (.dyadic .unimplemented (form32 sm dm src dst))
  | .unimpThree11 sm dm src dst => some (.dyadic .unimplemented (form16 sm dm src dst))
  | .unimpFive11 sm dm src dst => some (.dyadic .unimplemented (form32 sm dm src dst))
  | .unimpThree12 sm dm src dst => some (.dyadic .unimplemented (form16 sm dm src dst))
  | .unimpFive12 sm dm src dst => some (.dyadic .unimplemented (form32 sm dm src dst))
  | .unimpThree13 sm dm src dst => some (.dyadic .unimplemented (form16 sm dm src dst))
  | .unimpFive13 sm dm src dst => some (.dyadic .unimplemented (form32 sm dm src dst))
  | .unimpThree14 sm dm src dst => some (.dyadic .unimplemented (form16 sm dm src dst))
  | .unimpFive14 sm dm src dst => some (.dyadic .unimplemented (form32 sm dm src dst))
  | .unimpThree15 sm dm src dst => some (.dyadic .unimplemented (form16 sm dm src dst))
  | .unimpFive15 sm dm src dst => some (.dyadic .unimplemented (form32 sm dm src dst))
  | .unimpThree16 sm dm src dst => some (.dyadic .unimplemented (form16 sm dm src dst))
  | .unimpFive16 sm dm src dst => some (.dyadic .unimplemented (form32 sm dm src dst))
  | .unimpThree17 sm dm src dst => some (.dyadic .unimplemented (form16 sm dm src dst))
  | .unimpFive17 sm dm src dst => some (.dyadic .unimplemented (form32 sm dm src dst))
  | .unimpThree18 sm dm src dst => some (.dyadic .unimplemented (form16 sm dm src dst))
  | .unimpFive18 sm dm src dst => some (.dyadic .unimplemented (form32 sm dm src dst))
  | .unimpThree19 sm dm src dst => some (.dyadic .unimplemented (form16 sm dm src dst))
  | .unimpFive19 sm dm src dst => some (.dyadic .unimplemented (form32 sm dm src dst))
  | .unimpThree1A sm dm src dst => some (.dyadic .unimplemented (form16 sm dm src dst))
  | .unimpFive1A sm dm src dst => some (.dyadic .unimplemented (form32 sm dm src dst))
  | .unimpThree1B sm dm src dst => some (.dyadic .unimplemented (form16 sm dm src dst))
  | .unimpFive1B sm dm src dst => some (.dyadic .unimplemented (form32 sm dm src dst))
  | .unimpThree1C sm dm src dst => some (.dyadic .unimplemented (form16 sm dm src dst))
  | .unimpFive1C sm dm src dst => some (.dyadic .unimplemented (form32 sm dm src dst))
  | .cmpgtG16 sm dm src dst => some (.dyadic (.compare .gt) (form16 sm dm src dst))
  | .cmpgtG32 sm dm src dst => some (.dyadic (.compare .gt) (form32 sm dm src dst))
  | .cmphiG16 sm dm src dst => some (.dyadic (.compare .hi) (form16 sm dm src dst))
  | .cmphiG32 sm dm src dst => some (.dyadic (.compare .hi) (form32 sm dm src dst))
  | .cmpeqG16 sm dm src dst => some (.dyadic (.compare .eq) (form16 sm dm src dst))
  | .cmpeqG32 sm dm src dst => some (.dyadic (.compare .eq) (form32 sm dm src dst))
  | .subG16 sm dm src dst => some (.dyadic (.binary .sub false) (form16 sm dm src dst))
  | .subG32 sm dm src dst => some (.dyadic (.binary .sub false) (form32 sm dm src dst))
  | .orG16 sm dm src dst => some (.dyadic (.binary .or false) (form16 sm dm src dst))
  | .orG32 sm dm src dst => some (.dyadic (.binary .or false) (form32 sm dm src dst))
  | .andG16 sm dm src dst => some (.dyadic (.binary .and false) (form16 sm dm src dst))
  | .andG32 sm dm src dst => some (.dyadic (.binary .and false) (form32 sm dm src dst))
  | .addG16 sm dm src dst => some (.dyadic (.binary .add false) (form16 sm dm src dst))
  | .addG32 sm dm src dst => some (.dyadic (.binary .add false) (form32 sm dm src dst))
  | .xorG16 sm dm src dst => some (.dyadic (.binary .xor false) (form16 sm dm src dst))
  | .xorG32 sm dm src dst => some (.dyadic (.binary .xor false) (form32 sm dm src dst))
  | .remG16 sm dm src dst => some (.dyadic (.binary .rem false) (form16 sm dm src dst))
  | .remG32 sm dm src dst => some (.dyadic (.binary .rem false) (form32 sm dm src dst))
  | .mulG16 sm dm src dst => some (.dyadic (.binary .mul false) (form16 sm dm src dst))
  | .mulG32 sm dm src dst => some (.dyadic (.binary .mul false) (form32 sm dm src dst))
  | .divG16 sm dm src dst => some (.dyadic (.binary .div false) (form16 sm dm src dst))
  | .divG32 sm dm src dst => some (.dyadic (.binary .div false) (form32 sm dm src dst))
  | .unimpThree28 sm dm src dst => some (.dyadic .unimplemented (form16 sm dm src dst))
  | .unimpFive28 sm dm src dst => some (.dyadic .unimplemented (form32 sm dm src dst))
  | .unimpThree29 sm dm src dst => some (.dyadic .unimplemented (form16 sm dm src dst))
  | .unimpFive29 sm dm src dst => some (.dyadic .unimplemented (form32 sm dm src dst))
  | .unimpThree2A sm dm src dst => some (.dyadic .unimplemented (form16 sm dm src dst))
  | .unimpFive2A sm dm src dst => some (.dyadic .unimplemented (form32 sm dm src dst))
  | .unimpThree2B sm dm src dst => some (.dyadic .unimplemented (form16 sm dm src dst))
  | .unimpFive2B sm dm src dst => some (.dyadic .unimplemented (form32 sm dm src dst))
  | .shrG16 sm dm src dst => some (.dyadic (.binary .shr false) (form16 sm dm src dst))
  | .shrG32 sm dm src dst => some (.dyadic (.binary .shr false) (form32 sm dm src dst))
  | .ushrG16 sm dm src dst => some (.dyadic (.binary .ushr false) (form16 sm dm src dst))
  | .ushrG32 sm dm src dst => some (.dyadic (.binary .ushr false) (form32 sm dm src dst))
  | .shlG16 sm dm src dst => some (.dyadic (.binary .shl false) (form16 sm dm src dst))
  | .shlG32 sm dm src dst => some (.dyadic (.binary .shl false) (form32 sm dm src dst))
  | .udivG16 sm dm src dst => some (.dyadic (.binary .udiv false) (form16 sm dm src dst))
  | .udivG32 sm dm src dst => some (.dyadic (.binary .udiv false) (form32 sm dm src dst))
  | .sub3G16 sm dm src dst => some (.dyadic (.binary .sub true) (form16 sm dm src dst))
  | .sub3G32 sm dm src dst => some (.dyadic (.binary .sub true) (form32 sm dm src dst))
  | .or3G16 sm dm src dst => some (.dyadic (.binary .or true) (form16 sm dm src dst))
  | .or3G32 sm dm src dst => some (.dyadic (.binary .or true) (form32 sm dm src dst))
  | .and3G16 sm dm src dst => some (.dyadic (.binary .and true) (form16 sm dm src dst))
  | .and3G32 sm dm src dst => some (.dyadic (.binary .and true) (form32 sm dm src dst))
  | .add3G16 sm dm src dst => some (.dyadic (.binary .add true) (form16 sm dm src dst))
  | .add3G32 sm dm src dst => some (.dyadic (.binary .add true) (form32 sm dm src dst))
  | .xor3G16 sm dm src dst => some (.dyadic (.binary .xor true) (form16 sm dm src dst))
  | .xor3G32 sm dm src dst => some (.dyadic (.binary .xor true) (form32 sm dm src dst))
  | .rem3G16 sm dm src dst => some (.dyadic (.binary .rem true) (form16 sm dm src dst))
  | .rem3G32 sm dm src dst => some (.dyadic (.binary .rem true) (form32 sm dm src dst))
  | .mul3G16 sm dm src dst => some (.dyadic (.binary .mul true) (form16 sm dm src dst))
  | .mul3G32 sm dm src dst => some (.dyadic (.binary .mul true) (form32 sm dm src dst))
  | .div3G16 sm dm src dst => some (.dyadic (.binary .div true) (form16 sm dm src dst))
  | .div3G32 sm dm src dst => some (.dyadic (.binary .div true) (form32 sm dm src dst))
  | .unimpThree38 sm dm src dst => some (.dyadic .unimplemented (form16 sm dm src dst))
  | .unimpFive38 sm dm src dst => some (.dyadic .unimplemented (form32 sm dm src dst))
  | .unimpThree39 sm dm src dst => some (.dyadic .unimplemented (form16 sm dm src dst))
  | .unimpFive39 sm dm src dst => some (.dyadic .unimplemented (form32 sm dm src dst))
  | .unimpThree3A sm dm src dst => some (.dyadic .unimplemented (form16 sm dm src dst))
  | .unimpFive3A sm dm src dst => some (.dyadic .unimplemented (form32 sm dm src dst))
  | .unimpThree3B sm dm src dst => some (.dyadic .unimplemented (form16 sm dm src dst))
  | .unimpFive3B sm dm src dst => some (.dyadic .unimplemented (form32 sm dm src dst))
  | .shr3G16 sm dm src dst => some (.dyadic (.binary .shr true) (form16 sm dm src dst))
  | .shr3G32 sm dm src dst => some (.dyadic (.binary .shr true) (form32 sm dm src dst))
  | .ushr3G16 sm dm src dst => some (.dyadic (.binary .ushr true) (form16 sm dm src dst))
  | .ushr3G32 sm dm src dst => some (.dyadic (.binary .ushr true) (form32 sm dm src dst))
  | .shl3G16 sm dm src dst => some (.dyadic (.binary .shl true) (form16 sm dm src dst))
  | .shl3G32 sm dm src dst => some (.dyadic (.binary .shl true) (form32 sm dm src dst))
  | .unimpThree3F sm dm src dst => some (.dyadic .unimplemented (form16 sm dm src dst))
  | .unimpFive3F sm dm src dst => some (.dyadic .unimplemented (form32 sm dm src dst))

/-- A CPU prefix before a one-parcel instruction has no meaning (47_other.md R326, U6, log 30). -/
def refuseShort (_s : State) : Res Unit := .refuse .cpuBeforeOneParcel

/-- An instruction behind a CPU prefix (R326). -/
def runPrefixed (inner : Instr) (s : State) : Res Unit :=
  match viewOf inner with
  | some v => if inner.isWide then v.run true s else refuseShort s
  | none => refuseShort s

/-- An instruction as an operation on operands, and whether a CPU prefix stands before it. -/
def parse (i : Instr) : Option (Bool × View) :=
  match i with
  | .cpuWide inner => if inner.isWide then (viewOf inner).map fun v => (true, v) else none
  | i => (viewOf i).map fun v => (false, v)

end Sys2Proof.Machine
end

