-- ==== Sys2Proof/Machine/Arithmetic.lean ====
section
/-! DEFINITION. The meanings of ADD, SUB, MUL, DIV, REM, their "3" forms, UDIV, UREM, ADDI (spec/40_arithmetic.md). One definition for each
row of the opcode table, over the shared operations. -/

namespace Sys2Proof.Machine

/-- ADD3.WS wai5,stk5 (R184). -/
def execAdd3WS (s : BitVec 5) (d : BitVec 5) (st : State) : Host.Outcome State Fault Refusal :=
  settle (runBinary .add true false (formShort (wai5 s) (stk5 d)) st)

/-- ADD.CS imm5,stk5 (R183). -/
def execAddCS (s : BitVec 5) (d : BitVec 5) (st : State) : Host.Outcome State Fault Refusal :=
  settle (runBinary .add false false (formShort (imm5 s) (stk5 d)) st)

/-- ADD3.CS imm5,stk5 (R184). -/
def execAdd3CS (s : BitVec 5) (d : BitVec 5) (st : State) : Host.Outcome State Fault Refusal :=
  settle (runBinary .add true false (formShort (imm5 s) (stk5 d)) st)

/-- ADD.SS stk5,stk5 (R183). -/
def execAddSS (s : BitVec 5) (d : BitVec 5) (st : State) : Host.Outcome State Fault Refusal :=
  settle (runBinary .add false false (formShort (stk5 s) (stk5 d)) st)

/-- ADD3.SS stk5,stk5 (R184). -/
def execAdd3SS (s : BitVec 5) (d : BitVec 5) (st : State) : Host.Outcome State Fault Refusal :=
  settle (runBinary .add true false (formShort (stk5 s) (stk5 d)) st)

/-- ADDI src,dst (3-parcel) (R186). -/
def execAddiG16 (sm : BitVec 4) (dm : BitVec 4) (src : BitVec 16) (dst : BitVec 16) (st : State) : Host.Outcome State Fault Refusal :=
  settle (runLock .addi false (form16 sm dm src dst) st)

/-- ADDI src,dst (5-parcel) (R186). -/
def execAddiG32 (sm : BitVec 4) (dm : BitVec 4) (src : BitVec 32) (dst : BitVec 32) (st : State) : Host.Outcome State Fault Refusal :=
  settle (runLock .addi false (form32 sm dm src dst) st)

/-- UREM src,dst (3-parcel) (R195). -/
def execUremG16 (sm : BitVec 4) (dm : BitVec 4) (src : BitVec 16) (dst : BitVec 16) (st : State) : Host.Outcome State Fault Refusal :=
  settle (runBinary .urem false false (form16 sm dm src dst) st)

/-- UREM src,dst (5-parcel) (R195). -/
def execUremG32 (sm : BitVec 4) (dm : BitVec 4) (src : BitVec 32) (dst : BitVec 32) (st : State) : Host.Outcome State Fault Refusal :=
  settle (runBinary .urem false false (form32 sm dm src dst) st)

/-- SUB src,dst (3-parcel) (R185). -/
def execSubG16 (sm : BitVec 4) (dm : BitVec 4) (src : BitVec 16) (dst : BitVec 16) (st : State) : Host.Outcome State Fault Refusal :=
  settle (runBinary .sub false false (form16 sm dm src dst) st)

/-- SUB src,dst (5-parcel) (R185). -/
def execSubG32 (sm : BitVec 4) (dm : BitVec 4) (src : BitVec 32) (dst : BitVec 32) (st : State) : Host.Outcome State Fault Refusal :=
  settle (runBinary .sub false false (form32 sm dm src dst) st)

/-- ADD src,dst (3-parcel) (R183). -/
def execAddG16 (sm : BitVec 4) (dm : BitVec 4) (src : BitVec 16) (dst : BitVec 16) (st : State) : Host.Outcome State Fault Refusal :=
  settle (runBinary .add false false (form16 sm dm src dst) st)

/-- ADD src,dst (5-parcel) (R183). -/
def execAddG32 (sm : BitVec 4) (dm : BitVec 4) (src : BitVec 32) (dst : BitVec 32) (st : State) : Host.Outcome State Fault Refusal :=
  settle (runBinary .add false false (form32 sm dm src dst) st)

/-- REM src,dst (3-parcel) (R191). -/
def execRemG16 (sm : BitVec 4) (dm : BitVec 4) (src : BitVec 16) (dst : BitVec 16) (st : State) : Host.Outcome State Fault Refusal :=
  settle (runBinary .rem false false (form16 sm dm src dst) st)

/-- REM src,dst (5-parcel) (R191). -/
def execRemG32 (sm : BitVec 4) (dm : BitVec 4) (src : BitVec 32) (dst : BitVec 32) (st : State) : Host.Outcome State Fault Refusal :=
  settle (runBinary .rem false false (form32 sm dm src dst) st)

/-- MUL src,dst (3-parcel) (R187). -/
def execMulG16 (sm : BitVec 4) (dm : BitVec 4) (src : BitVec 16) (dst : BitVec 16) (st : State) : Host.Outcome State Fault Refusal :=
  settle (runBinary .mul false false (form16 sm dm src dst) st)

/-- MUL src,dst (5-parcel) (R187). -/
def execMulG32 (sm : BitVec 4) (dm : BitVec 4) (src : BitVec 32) (dst : BitVec 32) (st : State) : Host.Outcome State Fault Refusal :=
  settle (runBinary .mul false false (form32 sm dm src dst) st)

/-- DIV src,dst (3-parcel) (R189). -/
def execDivG16 (sm : BitVec 4) (dm : BitVec 4) (src : BitVec 16) (dst : BitVec 16) (st : State) : Host.Outcome State Fault Refusal :=
  settle (runBinary .div false false (form16 sm dm src dst) st)

/-- DIV src,dst (5-parcel) (R189). -/
def execDivG32 (sm : BitVec 4) (dm : BitVec 4) (src : BitVec 32) (dst : BitVec 32) (st : State) : Host.Outcome State Fault Refusal :=
  settle (runBinary .div false false (form32 sm dm src dst) st)

/-- UDIV src,dst (3-parcel) (R194). -/
def execUdivG16 (sm : BitVec 4) (dm : BitVec 4) (src : BitVec 16) (dst : BitVec 16) (st : State) : Host.Outcome State Fault Refusal :=
  settle (runBinary .udiv false false (form16 sm dm src dst) st)

/-- UDIV src,dst (5-parcel) (R194). -/
def execUdivG32 (sm : BitVec 4) (dm : BitVec 4) (src : BitVec 32) (dst : BitVec 32) (st : State) : Host.Outcome State Fault Refusal :=
  settle (runBinary .udiv false false (form32 sm dm src dst) st)

/-- SUB3 src,dst (3-parcel) (R185). -/
def execSub3G16 (sm : BitVec 4) (dm : BitVec 4) (src : BitVec 16) (dst : BitVec 16) (st : State) : Host.Outcome State Fault Refusal :=
  settle (runBinary .sub true false (form16 sm dm src dst) st)

/-- SUB3 src,dst (5-parcel) (R185). -/
def execSub3G32 (sm : BitVec 4) (dm : BitVec 4) (src : BitVec 32) (dst : BitVec 32) (st : State) : Host.Outcome State Fault Refusal :=
  settle (runBinary .sub true false (form32 sm dm src dst) st)

/-- ADD3 src,dst (3-parcel) (R184). -/
def execAdd3G16 (sm : BitVec 4) (dm : BitVec 4) (src : BitVec 16) (dst : BitVec 16) (st : State) : Host.Outcome State Fault Refusal :=
  settle (runBinary .add true false (form16 sm dm src dst) st)

/-- ADD3 src,dst (5-parcel) (R184). -/
def execAdd3G32 (sm : BitVec 4) (dm : BitVec 4) (src : BitVec 32) (dst : BitVec 32) (st : State) : Host.Outcome State Fault Refusal :=
  settle (runBinary .add true false (form32 sm dm src dst) st)

/-- REM3 src,dst (3-parcel) (R191). -/
def execRem3G16 (sm : BitVec 4) (dm : BitVec 4) (src : BitVec 16) (dst : BitVec 16) (st : State) : Host.Outcome State Fault Refusal :=
  settle (runBinary .rem true false (form16 sm dm src dst) st)

/-- REM3 src,dst (5-parcel) (R191). -/
def execRem3G32 (sm : BitVec 4) (dm : BitVec 4) (src : BitVec 32) (dst : BitVec 32) (st : State) : Host.Outcome State Fault Refusal :=
  settle (runBinary .rem true false (form32 sm dm src dst) st)

/-- MUL3 src,dst (3-parcel) (R187). -/
def execMul3G16 (sm : BitVec 4) (dm : BitVec 4) (src : BitVec 16) (dst : BitVec 16) (st : State) : Host.Outcome State Fault Refusal :=
  settle (runBinary .mul true false (form16 sm dm src dst) st)

/-- MUL3 src,dst (5-parcel) (R187). -/
def execMul3G32 (sm : BitVec 4) (dm : BitVec 4) (src : BitVec 32) (dst : BitVec 32) (st : State) : Host.Outcome State Fault Refusal :=
  settle (runBinary .mul true false (form32 sm dm src dst) st)

/-- DIV3 src,dst (3-parcel) (R189). -/
def execDiv3G16 (sm : BitVec 4) (dm : BitVec 4) (src : BitVec 16) (dst : BitVec 16) (st : State) : Host.Outcome State Fault Refusal :=
  settle (runBinary .div true false (form16 sm dm src dst) st)

/-- DIV3 src,dst (5-parcel) (R189). -/
def execDiv3G32 (sm : BitVec 4) (dm : BitVec 4) (src : BitVec 32) (dst : BitVec 32) (st : State) : Host.Outcome State Fault Refusal :=
  settle (runBinary .div true false (form32 sm dm src dst) st)

end Sys2Proof.Machine
end

