-- ==== Sys2Proof/Machine/Compare.lean ====
section
/-! DEFINITION. The meanings of CMPEQ, CMPGT, CMPHI (spec/41_compare.md). One definition for each
row of the opcode table, over the shared operations. -/

namespace Sys2Proof.Machine

/-- CMPEQ.CS imm5,stk5 (R211). -/
def execCmpeqCS (s : BitVec 5) (d : BitVec 5) (st : State) : Host.Outcome State Fault Refusal :=
  settle (runCompare .eq false (formShort (imm5 s) (stk5 d)) st)

/-- CMPGT.SS stk5,stk5 (R212). -/
def execCmpgtSS (s : BitVec 5) (d : BitVec 5) (st : State) : Host.Outcome State Fault Refusal :=
  settle (runCompare .gt false (formShort (stk5 s) (stk5 d)) st)

/-- CMPGT.CS imm5,stk5 (R212). -/
def execCmpgtCS (s : BitVec 5) (d : BitVec 5) (st : State) : Host.Outcome State Fault Refusal :=
  settle (runCompare .gt false (formShort (imm5 s) (stk5 d)) st)

/-- CMPEQ.SS stk5,stk5 (R211). -/
def execCmpeqSS (s : BitVec 5) (d : BitVec 5) (st : State) : Host.Outcome State Fault Refusal :=
  settle (runCompare .eq false (formShort (stk5 s) (stk5 d)) st)

/-- CMPGT src,dst (3-parcel) (R212). -/
def execCmpgtG16 (sm : BitVec 4) (dm : BitVec 4) (src : BitVec 16) (dst : BitVec 16) (st : State) : Host.Outcome State Fault Refusal :=
  settle (runCompare .gt false (form16 sm dm src dst) st)

/-- CMPGT src,dst (5-parcel) (R212). -/
def execCmpgtG32 (sm : BitVec 4) (dm : BitVec 4) (src : BitVec 32) (dst : BitVec 32) (st : State) : Host.Outcome State Fault Refusal :=
  settle (runCompare .gt false (form32 sm dm src dst) st)

/-- CMPHI src,dst (3-parcel) (R213). -/
def execCmphiG16 (sm : BitVec 4) (dm : BitVec 4) (src : BitVec 16) (dst : BitVec 16) (st : State) : Host.Outcome State Fault Refusal :=
  settle (runCompare .hi false (form16 sm dm src dst) st)

/-- CMPHI src,dst (5-parcel) (R213). -/
def execCmphiG32 (sm : BitVec 4) (dm : BitVec 4) (src : BitVec 32) (dst : BitVec 32) (st : State) : Host.Outcome State Fault Refusal :=
  settle (runCompare .hi false (form32 sm dm src dst) st)

/-- CMPEQ src,dst (3-parcel) (R211). -/
def execCmpeqG16 (sm : BitVec 4) (dm : BitVec 4) (src : BitVec 16) (dst : BitVec 16) (st : State) : Host.Outcome State Fault Refusal :=
  settle (runCompare .eq false (form16 sm dm src dst) st)

/-- CMPEQ src,dst (5-parcel) (R211). -/
def execCmpeqG32 (sm : BitVec 4) (dm : BitVec 4) (src : BitVec 32) (dst : BitVec 32) (st : State) : Host.Outcome State Fault Refusal :=
  settle (runCompare .eq false (form32 sm dm src dst) st)

end Sys2Proof.Machine
end

