-- ==== Sys2Proof/Machine/Control.lean ====
section
/-! DEFINITION. The meanings of jumps, calls, frames, kernel entry and exit (spec/44_program_control.md). One definition for each
row of the opcode table, over the shared operations. -/

namespace Sys2Proof.Machine

/-- KCALL imm10 (R277). -/
def execKcallImm10 (f : BitVec 10) (st : State) : Host.Outcome State Fault Refusal :=
  settle (runKcall false 0xF#4 (imm10 f) 1 st)

/-- CALL pcrel10 (R261). -/
def execCallPc10 (f : BitVec 10) (st : State) : Host.Outcome State Fault Refusal :=
  settle (runCall false 0xE#4 (pcrel10 f) 1 st)

/-- ENTER stk8 (R266). -/
def execEnterStk8 (f : BitVec 8) (st : State) : Host.Outcome State Fault Refusal :=
  settle (runEnter false 0xD#4 (enterOffset8 f) 1 st)

/-- CATCH stk8 (R263). -/
def execCatchStk8 (f : BitVec 8) (st : State) : Host.Outcome State Fault Refusal :=
  settle (runCatch false 0xD#4 (stk8 f) 1 st)

/-- RETURN stk8 (R276). -/
def execReturnStk8 (f : BitVec 8) (st : State) : Host.Outcome State Fault Refusal :=
  settle (runReturn 0xD#4 (stk8 f) st)

/-- POPN stk8 (R274). -/
def execPopnStk8 (f : BitVec 8) (st : State) : Host.Outcome State Fault Refusal :=
  settle (runPopn false 0xD#4 (stk8 f) 1 st)

/-- JMP pcrel10 (R270). -/
def execJmpPc10 (f : BitVec 10) (st : State) : Host.Outcome State Fault Refusal :=
  settle (runJmp 0xE#4 (pcrel10 f) st)

/-- JMPFN pcrel10 (R271). -/
def execJmpfnPc10 (f : BitVec 10) (st : State) : Host.Outcome State Fault Refusal :=
  settle (runJmpIf false false 0xE#4 (pcrel10 f) 1 st)

/-- JMPFY pcrel10 (R272). -/
def execJmpfyPc10 (f : BitVec 10) (st : State) : Host.Outcome State Fault Refusal :=
  settle (runJmpIf false false 0xE#4 (pcrel10 f) 1 st)

/-- JMPTN pcrel10 (R273). -/
def execJmptnPc10 (f : BitVec 10) (st : State) : Host.Outcome State Fault Refusal :=
  settle (runJmpIf true false 0xE#4 (pcrel10 f) 1 st)

/-- JMPTY pcrel10 (R275). -/
def execJmptyPc10 (f : BitVec 10) (st : State) : Host.Outcome State Fault Refusal :=
  settle (runJmpIf true false 0xE#4 (pcrel10 f) 1 st)

/-- KRET (R278). -/
def execKret (st : State) : Host.Outcome State Fault Refusal :=
  settle (runKret st)

/-- CRET (R264). -/
def execCret (st : State) : Host.Outcome State Fault Refusal :=
  settle (runCret st)

/-- KCALL word32 (R277). -/
def execKcallW32 (m : BitVec 4) (o : BitVec 32) (st : State) : Host.Outcome State Fault Refusal :=
  settle (runKcall false m o 3 st)

/-- CALL flow32 (R261). -/
def execCallF32 (m : BitVec 4) (o : BitVec 32) (st : State) : Host.Outcome State Fault Refusal :=
  settle (runCall false m o 3 st)

/-- RETURN stk32 (R276). -/
def execReturnS32 (m : BitVec 4) (o : BitVec 32) (st : State) : Host.Outcome State Fault Refusal :=
  settle (runReturn m o st)

/-- JMP flow32 (R270). -/
def execJmpF32 (m : BitVec 4) (o : BitVec 32) (st : State) : Host.Outcome State Fault Refusal :=
  settle (runJmp m o st)

/-- JMPFN abs32 (R271). -/
def execJmpfnA32 (m : BitVec 4) (o : BitVec 32) (st : State) : Host.Outcome State Fault Refusal :=
  settle (runJmpIf false false m o 3 st)

/-- JMPFY abs32 (R272). -/
def execJmpfyA32 (m : BitVec 4) (o : BitVec 32) (st : State) : Host.Outcome State Fault Refusal :=
  settle (runJmpIf false false m o 3 st)

/-- JMPTN abs32 (R273). -/
def execJmptnA32 (m : BitVec 4) (o : BitVec 32) (st : State) : Host.Outcome State Fault Refusal :=
  settle (runJmpIf true false m o 3 st)

/-- JMPTY abs32 (R275). -/
def execJmptyA32 (m : BitVec 4) (o : BitVec 32) (st : State) : Host.Outcome State Fault Refusal :=
  settle (runJmpIf true false m o 3 st)

/-- CATCH word32 (R263). -/
def execCatchW32 (m : BitVec 4) (o : BitVec 32) (st : State) : Host.Outcome State Fault Refusal :=
  settle (runCatch false m o 3 st)

/-- ENTER word32 (R266). -/
def execEnterW32 (m : BitVec 4) (o : BitVec 32) (st : State) : Host.Outcome State Fault Refusal :=
  settle (runEnter false m o 3 st)

/-- POPN stk32 (R274). -/
def execPopnS32 (m : BitVec 4) (o : BitVec 32) (st : State) : Host.Outcome State Fault Refusal :=
  settle (runPopn false m o 3 st)

end Sys2Proof.Machine
end

