-- ==== Sys2Proof/Machine/Logical.lean ====
section
/-! DEFINITION. The meanings of AND, OR, XOR, their "3" forms, ANDI, ORI (spec/42_logical.md). One definition for each
row of the opcode table, over the shared operations. -/

namespace Sys2Proof.Machine

/-- AND3.CS imm5,stk5 (R222). -/
def execAnd3CS (s : BitVec 5) (d : BitVec 5) (st : State) : Host.Outcome State Fault Refusal :=
  settle (runBinary .and true false (formShort (imm5 s) (stk5 d)) st)

/-- AND.SS stk5,stk5 (R221). -/
def execAndSS (s : BitVec 5) (d : BitVec 5) (st : State) : Host.Outcome State Fault Refusal :=
  settle (runBinary .and false false (formShort (stk5 s) (stk5 d)) st)

/-- ORI src,dst (3-parcel) (R225). -/
def execOriG16 (sm : BitVec 4) (dm : BitVec 4) (src : BitVec 16) (dst : BitVec 16) (st : State) : Host.Outcome State Fault Refusal :=
  settle (runLock .ori false (form16 sm dm src dst) st)

/-- ORI src,dst (5-parcel) (R225). -/
def execOriG32 (sm : BitVec 4) (dm : BitVec 4) (src : BitVec 32) (dst : BitVec 32) (st : State) : Host.Outcome State Fault Refusal :=
  settle (runLock .ori false (form32 sm dm src dst) st)

/-- ANDI src,dst (3-parcel) (R223). -/
def execAndiG16 (sm : BitVec 4) (dm : BitVec 4) (src : BitVec 16) (dst : BitVec 16) (st : State) : Host.Outcome State Fault Refusal :=
  settle (runLock .andi false (form16 sm dm src dst) st)

/-- ANDI src,dst (5-parcel) (R223). -/
def execAndiG32 (sm : BitVec 4) (dm : BitVec 4) (src : BitVec 32) (dst : BitVec 32) (st : State) : Host.Outcome State Fault Refusal :=
  settle (runLock .andi false (form32 sm dm src dst) st)

/-- OR src,dst (3-parcel) (R224). -/
def execOrG16 (sm : BitVec 4) (dm : BitVec 4) (src : BitVec 16) (dst : BitVec 16) (st : State) : Host.Outcome State Fault Refusal :=
  settle (runBinary .or false false (form16 sm dm src dst) st)

/-- OR src,dst (5-parcel) (R224). -/
def execOrG32 (sm : BitVec 4) (dm : BitVec 4) (src : BitVec 32) (dst : BitVec 32) (st : State) : Host.Outcome State Fault Refusal :=
  settle (runBinary .or false false (form32 sm dm src dst) st)

/-- AND src,dst (3-parcel) (R221). -/
def execAndG16 (sm : BitVec 4) (dm : BitVec 4) (src : BitVec 16) (dst : BitVec 16) (st : State) : Host.Outcome State Fault Refusal :=
  settle (runBinary .and false false (form16 sm dm src dst) st)

/-- AND src,dst (5-parcel) (R221). -/
def execAndG32 (sm : BitVec 4) (dm : BitVec 4) (src : BitVec 32) (dst : BitVec 32) (st : State) : Host.Outcome State Fault Refusal :=
  settle (runBinary .and false false (form32 sm dm src dst) st)

/-- XOR src,dst (3-parcel) (R226). -/
def execXorG16 (sm : BitVec 4) (dm : BitVec 4) (src : BitVec 16) (dst : BitVec 16) (st : State) : Host.Outcome State Fault Refusal :=
  settle (runBinary .xor false false (form16 sm dm src dst) st)

/-- XOR src,dst (5-parcel) (R226). -/
def execXorG32 (sm : BitVec 4) (dm : BitVec 4) (src : BitVec 32) (dst : BitVec 32) (st : State) : Host.Outcome State Fault Refusal :=
  settle (runBinary .xor false false (form32 sm dm src dst) st)

/-- OR3 src,dst (3-parcel) (R224). -/
def execOr3G16 (sm : BitVec 4) (dm : BitVec 4) (src : BitVec 16) (dst : BitVec 16) (st : State) : Host.Outcome State Fault Refusal :=
  settle (runBinary .or true false (form16 sm dm src dst) st)

/-- OR3 src,dst (5-parcel) (R224). -/
def execOr3G32 (sm : BitVec 4) (dm : BitVec 4) (src : BitVec 32) (dst : BitVec 32) (st : State) : Host.Outcome State Fault Refusal :=
  settle (runBinary .or true false (form32 sm dm src dst) st)

/-- AND3 src,dst (3-parcel) (R222). -/
def execAnd3G16 (sm : BitVec 4) (dm : BitVec 4) (src : BitVec 16) (dst : BitVec 16) (st : State) : Host.Outcome State Fault Refusal :=
  settle (runBinary .and true false (form16 sm dm src dst) st)

/-- AND3 src,dst (5-parcel) (R222). -/
def execAnd3G32 (sm : BitVec 4) (dm : BitVec 4) (src : BitVec 32) (dst : BitVec 32) (st : State) : Host.Outcome State Fault Refusal :=
  settle (runBinary .and true false (form32 sm dm src dst) st)

/-- XOR3 src,dst (3-parcel) (R226). -/
def execXor3G16 (sm : BitVec 4) (dm : BitVec 4) (src : BitVec 16) (dst : BitVec 16) (st : State) : Host.Outcome State Fault Refusal :=
  settle (runBinary .xor true false (form16 sm dm src dst) st)

/-- XOR3 src,dst (5-parcel) (R226). -/
def execXor3G32 (sm : BitVec 4) (dm : BitVec 4) (src : BitVec 32) (dst : BitVec 32) (st : State) : Host.Outcome State Fault Refusal :=
  settle (runBinary .xor true false (form32 sm dm src dst) st)

end Sys2Proof.Machine
end

