-- ==== Sys2Proof/Machine/Move.lean ====
section
/-! DEFINITION. The meanings of MOV, MOVA, DQM, LDRAA (spec/43_move.md). One definition for each
row of the opcode table, over the shared operations. -/

namespace Sys2Proof.Machine

/-- MOV.WS wai5,stk5 (R240). -/
def execMovWS (s : BitVec 5) (d : BitVec 5) (st : State) : Host.Outcome State Fault Refusal :=
  settle (runMov false (formShort (wai5 s) (stk5 d)) st)

/-- MOV.SS stk5,stk5 (R240). -/
def execMovSS (s : BitVec 5) (d : BitVec 5) (st : State) : Host.Outcome State Fault Refusal :=
  settle (runMov false (formShort (stk5 s) (stk5 d)) st)

/-- MOV.IS istk5,stk5 (R240). -/
def execMovIS (s : BitVec 5) (d : BitVec 5) (st : State) : Host.Outcome State Fault Refusal :=
  settle (runMov false (formShort (istk5 s) (stk5 d)) st)

/-- MOV.SI stk5,istk5 (R240). -/
def execMovSI (s : BitVec 5) (d : BitVec 5) (st : State) : Host.Outcome State Fault Refusal :=
  settle (runMov false (formShort (stk5 s) (istk5 d)) st)

/-- MOV.II istk5,istk5 (R240). -/
def execMovII (s : BitVec 5) (d : BitVec 5) (st : State) : Host.Outcome State Fault Refusal :=
  settle (runMov false (formShort (istk5 s) (istk5 d)) st)

/-- MOV.CS imm5,stk5 (R240). -/
def execMovCS (s : BitVec 5) (d : BitVec 5) (st : State) : Host.Outcome State Fault Refusal :=
  settle (runMov false (formShort (imm5 s) (stk5 d)) st)

/-- MOVA.SS stk5,stk5 (R243). -/
def execMovaSS (s : BitVec 5) (d : BitVec 5) (st : State) : Host.Outcome State Fault Refusal :=
  settle (runMova false (formShort (stk5 s) (stk5 d)) st)

/-- LDRAA flow32 (R245). -/
def execLdraaF32 (m : BitVec 4) (o : BitVec 32) (st : State) : Host.Outcome State Fault Refusal :=
  settle (runLdraa false m o 3 st)

/-- MOVA src,dst (3-parcel) (R243). -/
def execMovaG16 (sm : BitVec 4) (dm : BitVec 4) (src : BitVec 16) (dst : BitVec 16) (st : State) : Host.Outcome State Fault Refusal :=
  settle (runMova false (form16 sm dm src dst) st)

/-- MOVA src,dst (5-parcel) (R243). -/
def execMovaG32 (sm : BitVec 4) (dm : BitVec 4) (src : BitVec 32) (dst : BitVec 32) (st : State) : Host.Outcome State Fault Refusal :=
  settle (runMova false (form32 sm dm src dst) st)

/-- MOV src,dst (3-parcel) (R240). -/
def execMovG16 (sm : BitVec 4) (dm : BitVec 4) (src : BitVec 16) (dst : BitVec 16) (st : State) : Host.Outcome State Fault Refusal :=
  settle (runMov false (form16 sm dm src dst) st)

/-- MOV src,dst (5-parcel) (R240). -/
def execMovG32 (sm : BitVec 4) (dm : BitVec 4) (src : BitVec 32) (dst : BitVec 32) (st : State) : Host.Outcome State Fault Refusal :=
  settle (runMov false (form32 sm dm src dst) st)

/-- DQM src,dst (3-parcel) (R246). -/
def execDqmG16 (sm : BitVec 4) (dm : BitVec 4) (src : BitVec 16) (dst : BitVec 16) (st : State) : Host.Outcome State Fault Refusal :=
  settle (runDqm false (form16 sm dm src dst) st)

/-- DQM src,dst (5-parcel) (R246). -/
def execDqmG32 (sm : BitVec 4) (dm : BitVec 4) (src : BitVec 32) (dst : BitVec 32) (st : State) : Host.Outcome State Fault Refusal :=
  settle (runDqm false (form32 sm dm src dst) st)

end Sys2Proof.Machine
end

