-- ==== Sys2Proof/Machine/Other.lean ====
section
/-! DEFINITION. The meanings of CPU, NOP, TESTC, TESTV, CLRE and the flushes (spec/47_other.md). One definition for each
row of the opcode table, over the shared operations. -/

namespace Sys2Proof.Machine

/-- NOP (R327). -/
def execNop (st : State) : Host.Outcome State Fault Refusal :=
  settle (runNop st)

/-- FLUSHI (R335). -/
def execFlushi (st : State) : Host.Outcome State Fault Refusal :=
  settle (runFlushi st)

/-- FLUSHP (R336). -/
def execFlushp (st : State) : Host.Outcome State Fault Refusal :=
  settle (runFlushp st)

/-- TESTV (R329). -/
def execTestv (st : State) : Host.Outcome State Fault Refusal :=
  settle (runTest flagV st)

/-- TESTC (R328). -/
def execTestc (st : State) : Host.Outcome State Fault Refusal :=
  settle (runTest flagC st)

/-- CLRE (R330). -/
def execClre (st : State) : Host.Outcome State Fault Refusal :=
  settle (runClre st)

/-- FLUSHPTE word32 (R338). -/
def execFlushpteW32 (m : BitVec 4) (o : BitVec 32) (st : State) : Host.Outcome State Fault Refusal :=
  settle (runFlushpte false m o 3 st)

/-- FLUSHPBE word32 (R337). -/
def execFlushpbeW32 (m : BitVec 4) (o : BitVec 32) (st : State) : Host.Outcome State Fault Refusal :=
  settle (runFlushpbe false m o 3 st)

/-- CPU before a three- or five-parcel instruction (R326): that instruction runs with the mode table of 30_encoding.md
R132, at the address of the CPU parcel and with the combined length. -/
def execCpuWide (inner : Instr) (st : State) : Host.Outcome State Fault Refusal :=
  settle (runPrefixed inner st)

/-- CPU before a one-parcel instruction: no source describes it (R326, 93_implementation_defined.md U6, log 30). -/
def execCpuShort (_next : BitVec 16) (st : State) : Host.Outcome State Fault Refusal :=
  settle (refuseShort st)

end Sys2Proof.Machine
end

