-- ==== Sys2Proof/Machine/Shift.lean ====
section
/-! DEFINITION. The meanings of SHL, SHR, USHR and their "3" forms (spec/45_shift.md). One definition for each
row of the opcode table, over the shared operations. -/

namespace Sys2Proof.Machine

/-- SHL3.CS uimm5,stk5 (R302). -/
def execShl3CS (s : BitVec 5) (d : BitVec 5) (st : State) : Host.Outcome State Fault Refusal :=
  settle (runBinary .shl true false (formShort (uimm5 s) (stk5 d)) st)

/-- SHR3.CS uimm5,stk5 (R304). -/
def execShr3CS (s : BitVec 5) (d : BitVec 5) (st : State) : Host.Outcome State Fault Refusal :=
  settle (runBinary .shr true false (formShort (uimm5 s) (stk5 d)) st)

/-- SHR src,dst (3-parcel) (R303). -/
def execShrG16 (sm : BitVec 4) (dm : BitVec 4) (src : BitVec 16) (dst : BitVec 16) (st : State) : Host.Outcome State Fault Refusal :=
  settle (runBinary .shr false false (form16 sm dm src dst) st)

/-- SHR src,dst (5-parcel) (R303). -/
def execShrG32 (sm : BitVec 4) (dm : BitVec 4) (src : BitVec 32) (dst : BitVec 32) (st : State) : Host.Outcome State Fault Refusal :=
  settle (runBinary .shr false false (form32 sm dm src dst) st)

/-- USHR src,dst (3-parcel) (R305). -/
def execUshrG16 (sm : BitVec 4) (dm : BitVec 4) (src : BitVec 16) (dst : BitVec 16) (st : State) : Host.Outcome State Fault Refusal :=
  settle (runBinary .ushr false false (form16 sm dm src dst) st)

/-- USHR src,dst (5-parcel) (R305). -/
def execUshrG32 (sm : BitVec 4) (dm : BitVec 4) (src : BitVec 32) (dst : BitVec 32) (st : State) : Host.Outcome State Fault Refusal :=
  settle (runBinary .ushr false false (form32 sm dm src dst) st)

/-- SHL src,dst (3-parcel) (R301). -/
def execShlG16 (sm : BitVec 4) (dm : BitVec 4) (src : BitVec 16) (dst : BitVec 16) (st : State) : Host.Outcome State Fault Refusal :=
  settle (runBinary .shl false false (form16 sm dm src dst) st)

/-- SHL src,dst (5-parcel) (R301). -/
def execShlG32 (sm : BitVec 4) (dm : BitVec 4) (src : BitVec 32) (dst : BitVec 32) (st : State) : Host.Outcome State Fault Refusal :=
  settle (runBinary .shl false false (form32 sm dm src dst) st)

/-- SHR3 src,dst (3-parcel) (R304). -/
def execShr3G16 (sm : BitVec 4) (dm : BitVec 4) (src : BitVec 16) (dst : BitVec 16) (st : State) : Host.Outcome State Fault Refusal :=
  settle (runBinary .shr true false (form16 sm dm src dst) st)

/-- SHR3 src,dst (5-parcel) (R304). -/
def execShr3G32 (sm : BitVec 4) (dm : BitVec 4) (src : BitVec 32) (dst : BitVec 32) (st : State) : Host.Outcome State Fault Refusal :=
  settle (runBinary .shr true false (form32 sm dm src dst) st)

/-- USHR3 src,dst (3-parcel) (R306). -/
def execUshr3G16 (sm : BitVec 4) (dm : BitVec 4) (src : BitVec 16) (dst : BitVec 16) (st : State) : Host.Outcome State Fault Refusal :=
  settle (runBinary .ushr true false (form16 sm dm src dst) st)

/-- USHR3 src,dst (5-parcel) (R306). -/
def execUshr3G32 (sm : BitVec 4) (dm : BitVec 4) (src : BitVec 32) (dst : BitVec 32) (st : State) : Host.Outcome State Fault Refusal :=
  settle (runBinary .ushr true false (form32 sm dm src dst) st)

/-- SHL3 src,dst (3-parcel) (R302). -/
def execShl3G16 (sm : BitVec 4) (dm : BitVec 4) (src : BitVec 16) (dst : BitVec 16) (st : State) : Host.Outcome State Fault Refusal :=
  settle (runBinary .shl true false (form16 sm dm src dst) st)

/-- SHL3 src,dst (5-parcel) (R302). -/
def execShl3G32 (sm : BitVec 4) (dm : BitVec 4) (src : BitVec 32) (dst : BitVec 32) (st : State) : Host.Outcome State Fault Refusal :=
  settle (runBinary .shl true false (form32 sm dm src dst) st)

end Sys2Proof.Machine
end

