-- ==== Sys2Proof/Machine/Tagged.lean ====
section
/-! DEFINITION. The meanings of TADD, TSUB (spec/46_tagged.md). One definition for each
row of the opcode table, over the shared operations. -/

namespace Sys2Proof.Machine

/-- TADD src,dst (3-parcel) (R316). -/
def execTaddG16 (sm : BitVec 4) (dm : BitVec 4) (src : BitVec 16) (dst : BitVec 16) (st : State) : Host.Outcome State Fault Refusal :=
  settle (runTagged .tadd false (form16 sm dm src dst) st)

/-- TADD src,dst (5-parcel) (R316). -/
def execTaddG32 (sm : BitVec 4) (dm : BitVec 4) (src : BitVec 32) (dst : BitVec 32) (st : State) : Host.Outcome State Fault Refusal :=
  settle (runTagged .tadd false (form32 sm dm src dst) st)

/-- TSUB src,dst (3-parcel) (R317). -/
def execTsubG16 (sm : BitVec 4) (dm : BitVec 4) (src : BitVec 16) (dst : BitVec 16) (st : State) : Host.Outcome State Fault Refusal :=
  settle (runTagged .tsub false (form16 sm dm src dst) st)

/-- TSUB src,dst (5-parcel) (R317). -/
def execTsubG32 (sm : BitVec 4) (dm : BitVec 4) (src : BitVec 32) (dst : BitVec 32) (st : State) : Host.Outcome State Fault Refusal :=
  settle (runTagged .tsub false (form32 sm dm src dst) st)

end Sys2Proof.Machine
end

