-- ==== Sys2Proof/Machine/Unimplemented.lean ====
section
/-! DEFINITION. The meanings of the unimplemented opcodes and the trapped niladics (spec/47_other.md R340, R341; spec/60_exceptions.md R380, R381). One definition for each
row of the opcode table, over the shared operations. -/

namespace Sys2Proof.Machine

/-- Unimplemented: one-parcel opcode 0x08 (R340). -/
def execUnimpOne08 (_x : BitVec 10) (st : State) : Host.Outcome State Fault Refusal :=
  settle (unimplementedSequence 12#32 st)

/-- Unimplemented: one-parcel opcode 0x09 (R340). -/
def execUnimpOne09 (_x : BitVec 10) (st : State) : Host.Outcome State Fault Refusal :=
  settle (unimplementedSequence 12#32 st)

/-- FLUSHD (R333). -/
def execFlushd (st : State) : Host.Outcome State Fault Refusal :=
  settle (unimplementedSequence 12#32 st)

/-- Unimplemented: niladic subcode 0007 (R340). -/
def execUnimpNil007 (st : State) : Host.Outcome State Fault Refusal :=
  settle (unimplementedSequence 12#32 st)

/-- Unimplemented: niladic subcode 000B (R340). -/
def execUnimpNil00B (st : State) : Host.Outcome State Fault Refusal :=
  settle (unimplementedSequence 12#32 st)

/-- Unimplemented: niladic subcode 000C..000F (R340). -/
def execUnimpNil00C (_x : BitVec 2) (st : State) : Host.Outcome State Fault Refusal :=
  settle (unimplementedSequence 12#32 st)

/-- Unimplemented: niladic subcode 0010..001F (R340). -/
def execUnimpNil010 (_x : BitVec 4) (st : State) : Host.Outcome State Fault Refusal :=
  settle (unimplementedSequence 12#32 st)

/-- Unimplemented: niladic subcode 0020..003F (R340). -/
def execUnimpNil020 (_x : BitVec 5) (st : State) : Host.Outcome State Fault Refusal :=
  settle (unimplementedSequence 12#32 st)

/-- Unimplemented: niladic subcode 0040..007F (R340). -/
def execUnimpNil040 (_x : BitVec 6) (st : State) : Host.Outcome State Fault Refusal :=
  settle (unimplementedSequence 12#32 st)

/-- Unimplemented: niladic subcode 0080..00FF (R340). -/
def execUnimpNil080 (_x : BitVec 7) (st : State) : Host.Outcome State Fault Refusal :=
  settle (unimplementedSequence 12#32 st)

/-- Unimplemented: niladic subcode 0100..01FF (R340). -/
def execUnimpNil100 (_x : BitVec 8) (st : State) : Host.Outcome State Fault Refusal :=
  settle (unimplementedSequence 12#32 st)

/-- Trapped niladic (R341). -/
def execTrappedNiladic (_t : BitVec 9) (st : State) : Host.Outcome State Fault Refusal :=
  settle (unimplementedSequence 8#32 st)

/-- Unimplemented: one-parcel opcode 0x0C (R340). -/
def execUnimpOne0C (_x : BitVec 10) (st : State) : Host.Outcome State Fault Refusal :=
  settle (unimplementedSequence 12#32 st)

/-- FLUSHDCE word32 (R334). -/
def execFlushdceW32 (m : BitVec 4) (_o : BitVec 32) (st : State) : Host.Outcome State Fault Refusal :=
  settle (runUnimplementedMonadic m st)

/-- Unimplemented: monadic subcode 0xE (R340). -/
def execUnimpMonE (m : BitVec 4) (_o : BitVec 32) (st : State) : Host.Outcome State Fault Refusal :=
  settle (runUnimplementedMonadic m st)

/-- Unimplemented: five-parcel opcode 0x00 (R340). -/
def execUnimpFive00 (sm : BitVec 4) (dm : BitVec 4) (src : BitVec 32) (dst : BitVec 32) (st : State) : Host.Outcome State Fault Refusal :=
  settle (runUnimplementedDyadic false (form32 sm dm src dst) st)

/-- Unimplemented: 3-parcel opcode 0x08 (R340). -/
def execUnimpThree08 (sm : BitVec 4) (dm : BitVec 4) (src : BitVec 16) (dst : BitVec 16) (st : State) : Host.Outcome State Fault Refusal :=
  settle (runUnimplementedDyadic false (form16 sm dm src dst) st)

/-- Unimplemented: 5-parcel opcode 0x08 (R340). -/
def execUnimpFive08 (sm : BitVec 4) (dm : BitVec 4) (src : BitVec 32) (dst : BitVec 32) (st : State) : Host.Outcome State Fault Refusal :=
  settle (runUnimplementedDyadic false (form32 sm dm src dst) st)

/-- Unimplemented: 3-parcel opcode 0x09 (R340). -/
def execUnimpThree09 (sm : BitVec 4) (dm : BitVec 4) (src : BitVec 16) (dst : BitVec 16) (st : State) : Host.Outcome State Fault Refusal :=
  settle (runUnimplementedDyadic false (form16 sm dm src dst) st)

/-- Unimplemented: 5-parcel opcode 0x09 (R340). -/
def execUnimpFive09 (sm : BitVec 4) (dm : BitVec 4) (src : BitVec 32) (dst : BitVec 32) (st : State) : Host.Outcome State Fault Refusal :=
  settle (runUnimplementedDyadic false (form32 sm dm src dst) st)

/-- Unimplemented: 3-parcel opcode 0x0A (R340). -/
def execUnimpThree0A (sm : BitVec 4) (dm : BitVec 4) (src : BitVec 16) (dst : BitVec 16) (st : State) : Host.Outcome State Fault Refusal :=
  settle (runUnimplementedDyadic false (form16 sm dm src dst) st)

/-- Unimplemented: 5-parcel opcode 0x0A (R340). -/
def execUnimpFive0A (sm : BitVec 4) (dm : BitVec 4) (src : BitVec 32) (dst : BitVec 32) (st : State) : Host.Outcome State Fault Refusal :=
  settle (runUnimplementedDyadic false (form32 sm dm src dst) st)

/-- Unimplemented: 3-parcel opcode 0x0B (R340). -/
def execUnimpThree0B (sm : BitVec 4) (dm : BitVec 4) (src : BitVec 16) (dst : BitVec 16) (st : State) : Host.Outcome State Fault Refusal :=
  settle (runUnimplementedDyadic false (form16 sm dm src dst) st)

/-- Unimplemented: 5-parcel opcode 0x0B (R340). -/
def execUnimpFive0B (sm : BitVec 4) (dm : BitVec 4) (src : BitVec 32) (dst : BitVec 32) (st : State) : Host.Outcome State Fault Refusal :=
  settle (runUnimplementedDyadic false (form32 sm dm src dst) st)

/-- Unimplemented: 3-parcel opcode 0x0E (R340). -/
def execUnimpThree0E (sm : BitVec 4) (dm : BitVec 4) (src : BitVec 16) (dst : BitVec 16) (st : State) : Host.Outcome State Fault Refusal :=
  settle (runUnimplementedDyadic false (form16 sm dm src dst) st)

/-- Unimplemented: 5-parcel opcode 0x0E (R340). -/
def execUnimpFive0E (sm : BitVec 4) (dm : BitVec 4) (src : BitVec 32) (dst : BitVec 32) (st : State) : Host.Outcome State Fault Refusal :=
  settle (runUnimplementedDyadic false (form32 sm dm src dst) st)

/-- Unimplemented: 3-parcel opcode 0x0F (R340). -/
def execUnimpThree0F (sm : BitVec 4) (dm : BitVec 4) (src : BitVec 16) (dst : BitVec 16) (st : State) : Host.Outcome State Fault Refusal :=
  settle (runUnimplementedDyadic false (form16 sm dm src dst) st)

/-- Unimplemented: 5-parcel opcode 0x0F (R340). -/
def execUnimpFive0F (sm : BitVec 4) (dm : BitVec 4) (src : BitVec 32) (dst : BitVec 32) (st : State) : Host.Outcome State Fault Refusal :=
  settle (runUnimplementedDyadic false (form32 sm dm src dst) st)

/-- Unimplemented: 3-parcel opcode 0x10 (R340). -/
def execUnimpThree10 (sm : BitVec 4) (dm : BitVec 4) (src : BitVec 16) (dst : BitVec 16) (st : State) : Host.Outcome State Fault Refusal :=
  settle (runUnimplementedDyadic false (form16 sm dm src dst) st)

/-- Unimplemented: 5-parcel opcode 0x10 (R340). -/
def execUnimpFive10 (sm : BitVec 4) (dm : BitVec 4) (src : BitVec 32) (dst : BitVec 32) (st : State) : Host.Outcome State Fault Refusal :=
  settle (runUnimplementedDyadic false (form32 sm dm src dst) st)

/-- Unimplemented: 3-parcel opcode 0x11 (R340). -/
def execUnimpThree11 (sm : BitVec 4) (dm : BitVec 4) (src : BitVec 16) (dst : BitVec 16) (st : State) : Host.Outcome State Fault Refusal :=
  settle (runUnimplementedDyadic false (form16 sm dm src dst) st)

/-- Unimplemented: 5-parcel opcode 0x11 (R340). -/
def execUnimpFive11 (sm : BitVec 4) (dm : BitVec 4) (src : BitVec 32) (dst : BitVec 32) (st : State) : Host.Outcome State Fault Refusal :=
  settle (runUnimplementedDyadic false (form32 sm dm src dst) st)

/-- Unimplemented: 3-parcel opcode 0x12 (R340). -/
def execUnimpThree12 (sm : BitVec 4) (dm : BitVec 4) (src : BitVec 16) (dst : BitVec 16) (st : State) : Host.Outcome State Fault Refusal :=
  settle (runUnimplementedDyadic false (form16 sm dm src dst) st)

/-- Unimplemented: 5-parcel opcode 0x12 (R340). -/
def execUnimpFive12 (sm : BitVec 4) (dm : BitVec 4) (src : BitVec 32) (dst : BitVec 32) (st : State) : Host.Outcome State Fault Refusal :=
  settle (runUnimplementedDyadic false (form32 sm dm src dst) st)

/-- Unimplemented: 3-parcel opcode 0x13 (R340). -/
def execUnimpThree13 (sm : BitVec 4) (dm : BitVec 4) (src : BitVec 16) (dst : BitVec 16) (st : State) : Host.Outcome State Fault Refusal :=
  settle (runUnimplementedDyadic false (form16 sm dm src dst) st)

/-- Unimplemented: 5-parcel opcode 0x13 (R340). -/
def execUnimpFive13 (sm : BitVec 4) (dm : BitVec 4) (src : BitVec 32) (dst : BitVec 32) (st : State) : Host.Outcome State Fault Refusal :=
  settle (runUnimplementedDyadic false (form32 sm dm src dst) st)

/-- Unimplemented: 3-parcel opcode 0x14 (R340). -/
def execUnimpThree14 (sm : BitVec 4) (dm : BitVec 4) (src : BitVec 16) (dst : BitVec 16) (st : State) : Host.Outcome State Fault Refusal :=
  settle (runUnimplementedDyadic false (form16 sm dm src dst) st)

/-- Unimplemented: 5-parcel opcode 0x14 (R340). -/
def execUnimpFive14 (sm : BitVec 4) (dm : BitVec 4) (src : BitVec 32) (dst : BitVec 32) (st : State) : Host.Outcome State Fault Refusal :=
  settle (runUnimplementedDyadic false (form32 sm dm src dst) st)

/-- Unimplemented: 3-parcel opcode 0x15 (R340). -/
def execUnimpThree15 (sm : BitVec 4) (dm : BitVec 4) (src : BitVec 16) (dst : BitVec 16) (st : State) : Host.Outcome State Fault Refusal :=
  settle (runUnimplementedDyadic false (form16 sm dm src dst) st)

/-- Unimplemented: 5-parcel opcode 0x15 (R340). -/
def execUnimpFive15 (sm : BitVec 4) (dm : BitVec 4) (src : BitVec 32) (dst : BitVec 32) (st : State) : Host.Outcome State Fault Refusal :=
  settle (runUnimplementedDyadic false (form32 sm dm src dst) st)

/-- Unimplemented: 3-parcel opcode 0x16 (R340). -/
def execUnimpThree16 (sm : BitVec 4) (dm : BitVec 4) (src : BitVec 16) (dst : BitVec 16) (st : State) : Host.Outcome State Fault Refusal :=
  settle (runUnimplementedDyadic false (form16 sm dm src dst) st)

/-- Unimplemented: 5-parcel opcode 0x16 (R340). -/
def execUnimpFive16 (sm : BitVec 4) (dm : BitVec 4) (src : BitVec 32) (dst : BitVec 32) (st : State) : Host.Outcome State Fault Refusal :=
  settle (runUnimplementedDyadic false (form32 sm dm src dst) st)

/-- Unimplemented: 3-parcel opcode 0x17 (R340). -/
def execUnimpThree17 (sm : BitVec 4) (dm : BitVec 4) (src : BitVec 16) (dst : BitVec 16) (st : State) : Host.Outcome State Fault Refusal :=
  settle (runUnimplementedDyadic false (form16 sm dm src dst) st)

/-- Unimplemented: 5-parcel opcode 0x17 (R340). -/
def execUnimpFive17 (sm : BitVec 4) (dm : BitVec 4) (src : BitVec 32) (dst : BitVec 32) (st : State) : Host.Outcome State Fault Refusal :=
  settle (runUnimplementedDyadic false (form32 sm dm src dst) st)

/-- Unimplemented: 3-parcel opcode 0x18 (R340). -/
def execUnimpThree18 (sm : BitVec 4) (dm : BitVec 4) (src : BitVec 16) (dst : BitVec 16) (st : State) : Host.Outcome State Fault Refusal :=
  settle (runUnimplementedDyadic false (form16 sm dm src dst) st)

/-- Unimplemented: 5-parcel opcode 0x18 (R340). -/
def execUnimpFive18 (sm : BitVec 4) (dm : BitVec 4) (src : BitVec 32) (dst : BitVec 32) (st : State) : Host.Outcome State Fault Refusal :=
  settle (runUnimplementedDyadic false (form32 sm dm src dst) st)

/-- Unimplemented: 3-parcel opcode 0x19 (R340). -/
def execUnimpThree19 (sm : BitVec 4) (dm : BitVec 4) (src : BitVec 16) (dst : BitVec 16) (st : State) : Host.Outcome State Fault Refusal :=
  settle (runUnimplementedDyadic false (form16 sm dm src dst) st)

/-- Unimplemented: 5-parcel opcode 0x19 (R340). -/
def execUnimpFive19 (sm : BitVec 4) (dm : BitVec 4) (src : BitVec 32) (dst : BitVec 32) (st : State) : Host.Outcome State Fault Refusal :=
  settle (runUnimplementedDyadic false (form32 sm dm src dst) st)

/-- Unimplemented: 3-parcel opcode 0x1A (R340). -/
def execUnimpThree1A (sm : BitVec 4) (dm : BitVec 4) (src : BitVec 16) (dst : BitVec 16) (st : State) : Host.Outcome State Fault Refusal :=
  settle (runUnimplementedDyadic false (form16 sm dm src dst) st)

/-- Unimplemented: 5-parcel opcode 0x1A (R340). -/
def execUnimpFive1A (sm : BitVec 4) (dm : BitVec 4) (src : BitVec 32) (dst : BitVec 32) (st : State) : Host.Outcome State Fault Refusal :=
  settle (runUnimplementedDyadic false (form32 sm dm src dst) st)

/-- Unimplemented: 3-parcel opcode 0x1B (R340). -/
def execUnimpThree1B (sm : BitVec 4) (dm : BitVec 4) (src : BitVec 16) (dst : BitVec 16) (st : State) : Host.Outcome State Fault Refusal :=
  settle (runUnimplementedDyadic false (form16 sm dm src dst) st)

/-- Unimplemented: 5-parcel opcode 0x1B (R340). -/
def execUnimpFive1B (sm : BitVec 4) (dm : BitVec 4) (src : BitVec 32) (dst : BitVec 32) (st : State) : Host.Outcome State Fault Refusal :=
  settle (runUnimplementedDyadic false (form32 sm dm src dst) st)

/-- Unimplemented: 3-parcel opcode 0x1C (R340). -/
def execUnimpThree1C (sm : BitVec 4) (dm : BitVec 4) (src : BitVec 16) (dst : BitVec 16) (st : State) : Host.Outcome State Fault Refusal :=
  settle (runUnimplementedDyadic false (form16 sm dm src dst) st)

/-- Unimplemented: 5-parcel opcode 0x1C (R340). -/
def execUnimpFive1C (sm : BitVec 4) (dm : BitVec 4) (src : BitVec 32) (dst : BitVec 32) (st : State) : Host.Outcome State Fault Refusal :=
  settle (runUnimplementedDyadic false (form32 sm dm src dst) st)

/-- Unimplemented: 3-parcel opcode 0x28 (R340). -/
def execUnimpThree28 (sm : BitVec 4) (dm : BitVec 4) (src : BitVec 16) (dst : BitVec 16) (st : State) : Host.Outcome State Fault Refusal :=
  settle (runUnimplementedDyadic false (form16 sm dm src dst) st)

/-- Unimplemented: 5-parcel opcode 0x28 (R340). -/
def execUnimpFive28 (sm : BitVec 4) (dm : BitVec 4) (src : BitVec 32) (dst : BitVec 32) (st : State) : Host.Outcome State Fault Refusal :=
  settle (runUnimplementedDyadic false (form32 sm dm src dst) st)

/-- Unimplemented: 3-parcel opcode 0x29 (R340). -/
def execUnimpThree29 (sm : BitVec 4) (dm : BitVec 4) (src : BitVec 16) (dst : BitVec 16) (st : State) : Host.Outcome State Fault Refusal :=
  settle (runUnimplementedDyadic false (form16 sm dm src dst) st)

/-- Unimplemented: 5-parcel opcode 0x29 (R340). -/
def execUnimpFive29 (sm : BitVec 4) (dm : BitVec 4) (src : BitVec 32) (dst : BitVec 32) (st : State) : Host.Outcome State Fault Refusal :=
  settle (runUnimplementedDyadic false (form32 sm dm src dst) st)

/-- Unimplemented: 3-parcel opcode 0x2A (R340). -/
def execUnimpThree2A (sm : BitVec 4) (dm : BitVec 4) (src : BitVec 16) (dst : BitVec 16) (st : State) : Host.Outcome State Fault Refusal :=
  settle (runUnimplementedDyadic false (form16 sm dm src dst) st)

/-- Unimplemented: 5-parcel opcode 0x2A (R340). -/
def execUnimpFive2A (sm : BitVec 4) (dm : BitVec 4) (src : BitVec 32) (dst : BitVec 32) (st : State) : Host.Outcome State Fault Refusal :=
  settle (runUnimplementedDyadic false (form32 sm dm src dst) st)

/-- Unimplemented: 3-parcel opcode 0x2B (R340). -/
def execUnimpThree2B (sm : BitVec 4) (dm : BitVec 4) (src : BitVec 16) (dst : BitVec 16) (st : State) : Host.Outcome State Fault Refusal :=
  settle (runUnimplementedDyadic false (form16 sm dm src dst) st)

/-- Unimplemented: 5-parcel opcode 0x2B (R340). -/
def execUnimpFive2B (sm : BitVec 4) (dm : BitVec 4) (src : BitVec 32) (dst : BitVec 32) (st : State) : Host.Outcome State Fault Refusal :=
  settle (runUnimplementedDyadic false (form32 sm dm src dst) st)

/-- Unimplemented: 3-parcel opcode 0x38 (R340). -/
def execUnimpThree38 (sm : BitVec 4) (dm : BitVec 4) (src : BitVec 16) (dst : BitVec 16) (st : State) : Host.Outcome State Fault Refusal :=
  settle (runUnimplementedDyadic false (form16 sm dm src dst) st)

/-- Unimplemented: 5-parcel opcode 0x38 (R340). -/
def execUnimpFive38 (sm : BitVec 4) (dm : BitVec 4) (src : BitVec 32) (dst : BitVec 32) (st : State) : Host.Outcome State Fault Refusal :=
  settle (runUnimplementedDyadic false (form32 sm dm src dst) st)

/-- Unimplemented: 3-parcel opcode 0x39 (R340). -/
def execUnimpThree39 (sm : BitVec 4) (dm : BitVec 4) (src : BitVec 16) (dst : BitVec 16) (st : State) : Host.Outcome State Fault Refusal :=
  settle (runUnimplementedDyadic false (form16 sm dm src dst) st)

/-- Unimplemented: 5-parcel opcode 0x39 (R340). -/
def execUnimpFive39 (sm : BitVec 4) (dm : BitVec 4) (src : BitVec 32) (dst : BitVec 32) (st : State) : Host.Outcome State Fault Refusal :=
  settle (runUnimplementedDyadic false (form32 sm dm src dst) st)

/-- Unimplemented: 3-parcel opcode 0x3A (R340). -/
def execUnimpThree3A (sm : BitVec 4) (dm : BitVec 4) (src : BitVec 16) (dst : BitVec 16) (st : State) : Host.Outcome State Fault Refusal :=
  settle (runUnimplementedDyadic false (form16 sm dm src dst) st)

/-- Unimplemented: 5-parcel opcode 0x3A (R340). -/
def execUnimpFive3A (sm : BitVec 4) (dm : BitVec 4) (src : BitVec 32) (dst : BitVec 32) (st : State) : Host.Outcome State Fault Refusal :=
  settle (runUnimplementedDyadic false (form32 sm dm src dst) st)

/-- Unimplemented: 3-parcel opcode 0x3B (R340). -/
def execUnimpThree3B (sm : BitVec 4) (dm : BitVec 4) (src : BitVec 16) (dst : BitVec 16) (st : State) : Host.Outcome State Fault Refusal :=
  settle (runUnimplementedDyadic false (form16 sm dm src dst) st)

/-- Unimplemented: 5-parcel opcode 0x3B (R340). -/
def execUnimpFive3B (sm : BitVec 4) (dm : BitVec 4) (src : BitVec 32) (dst : BitVec 32) (st : State) : Host.Outcome State Fault Refusal :=
  settle (runUnimplementedDyadic false (form32 sm dm src dst) st)

/-- Unimplemented: 3-parcel opcode 0x3F (R340). -/
def execUnimpThree3F (sm : BitVec 4) (dm : BitVec 4) (src : BitVec 16) (dst : BitVec 16) (st : State) : Host.Outcome State Fault Refusal :=
  settle (runUnimplementedDyadic false (form16 sm dm src dst) st)

/-- Unimplemented: 5-parcel opcode 0x3F (R340). -/
def execUnimpFive3F (sm : BitVec 4) (dm : BitVec 4) (src : BitVec 32) (dst : BitVec 32) (st : State) : Host.Outcome State Fault Refusal :=
  settle (runUnimplementedDyadic false (form32 sm dm src dst) st)

end Sys2Proof.Machine
end

