-- ==== Sys2Proof/Machine/Dispatch.lean ====
section
/-! DEFINITION. The dispatch: one arm for each constructor of `Instr`, each a direct call of its meaning. -/

namespace Sys2Proof.Machine

/-- What an instruction does (the events before and after it are the step's). -/
def exec (i : Instr) (s : State) : Host.Outcome State Fault Refusal :=
    match i with
      | .kcallImm10 f => Sys2Proof.Machine.execKcallImm10 f s
      | .callPc10 f => Sys2Proof.Machine.execCallPc10 f s
      | .enterStk8 f => Sys2Proof.Machine.execEnterStk8 f s
      | .catchStk8 f => Sys2Proof.Machine.execCatchStk8 f s
      | .returnStk8 f => Sys2Proof.Machine.execReturnStk8 f s
      | .popnStk8 f => Sys2Proof.Machine.execPopnStk8 f s
      | .jmpPc10 f => Sys2Proof.Machine.execJmpPc10 f s
      | .jmpfnPc10 f => Sys2Proof.Machine.execJmpfnPc10 f s
      | .jmpfyPc10 f => Sys2Proof.Machine.execJmpfyPc10 f s
      | .jmptnPc10 f => Sys2Proof.Machine.execJmptnPc10 f s
      | .jmptyPc10 f => Sys2Proof.Machine.execJmptyPc10 f s
      | .unimpOne08 x => Sys2Proof.Machine.execUnimpOne08 x s
      | .unimpOne09 x => Sys2Proof.Machine.execUnimpOne09 x s
      | .movWS a b => Sys2Proof.Machine.execMovWS a b s
      | .cpuWide inner => Sys2Proof.Machine.execCpuWide inner s
      | .cpuShort next => Sys2Proof.Machine.execCpuShort next s
      | .kret => Sys2Proof.Machine.execKret s
      | .nop => Sys2Proof.Machine.execNop s
      | .flushi => Sys2Proof.Machine.execFlushi s
      | .flushp => Sys2Proof.Machine.execFlushp s
      | .cret => Sys2Proof.Machine.execCret s
      | .flushd => Sys2Proof.Machine.execFlushd s
      | .testv => Sys2Proof.Machine.execTestv s
      | .testc => Sys2Proof.Machine.execTestc s
      | .clre => Sys2Proof.Machine.execClre s
      | .unimpNil007 => Sys2Proof.Machine.execUnimpNil007 s
      | .unimpNil00B => Sys2Proof.Machine.execUnimpNil00B s
      | .unimpNil00C x => Sys2Proof.Machine.execUnimpNil00C x s
      | .unimpNil010 x => Sys2Proof.Machine.execUnimpNil010 x s
      | .unimpNil020 x => Sys2Proof.Machine.execUnimpNil020 x s
      | .unimpNil040 x => Sys2Proof.Machine.execUnimpNil040 x s
      | .unimpNil080 x => Sys2Proof.Machine.execUnimpNil080 x s
      | .unimpNil100 x => Sys2Proof.Machine.execUnimpNil100 x s
      | .trappedNiladic t => Sys2Proof.Machine.execTrappedNiladic t s
      | .unimpOne0C x => Sys2Proof.Machine.execUnimpOne0C x s
      | .add3WS a b => Sys2Proof.Machine.execAdd3WS a b s
      | .and3CS a b => Sys2Proof.Machine.execAnd3CS a b s
      | .andSS a b => Sys2Proof.Machine.execAndSS a b s
      | .cmpeqCS a b => Sys2Proof.Machine.execCmpeqCS a b s
      | .cmpgtSS a b => Sys2Proof.Machine.execCmpgtSS a b s
      | .cmpgtCS a b => Sys2Proof.Machine.execCmpgtCS a b s
      | .cmpeqSS a b => Sys2Proof.Machine.execCmpeqSS a b s
      | .addCS a b => Sys2Proof.Machine.execAddCS a b s
      | .add3CS a b => Sys2Proof.Machine.execAdd3CS a b s
      | .addSS a b => Sys2Proof.Machine.execAddSS a b s
      | .add3SS a b => Sys2Proof.Machine.execAdd3SS a b s
      | .movSS a b => Sys2Proof.Machine.execMovSS a b s
      | .movIS a b => Sys2Proof.Machine.execMovIS a b s
      | .movSI a b => Sys2Proof.Machine.execMovSI a b s
      | .movII a b => Sys2Proof.Machine.execMovII a b s
      | .movCS a b => Sys2Proof.Machine.execMovCS a b s
      | .movaSS a b => Sys2Proof.Machine.execMovaSS a b s
      | .shl3CS a b => Sys2Proof.Machine.execShl3CS a b s
      | .shr3CS a b => Sys2Proof.Machine.execShr3CS a b s
      | .kcallW32 m o => Sys2Proof.Machine.execKcallW32 m o s
      | .callF32 m o => Sys2Proof.Machine.execCallF32 m o s
      | .returnS32 m o => Sys2Proof.Machine.execReturnS32 m o s
      | .jmpF32 m o => Sys2Proof.Machine.execJmpF32 m o s
      | .jmpfnA32 m o => Sys2Proof.Machine.execJmpfnA32 m o s
      | .jmpfyA32 m o => Sys2Proof.Machine.execJmpfyA32 m o s
      | .jmptnA32 m o => Sys2Proof.Machine.execJmptnA32 m o s
      | .jmptyA32 m o => Sys2Proof.Machine.execJmptyA32 m o s
      | .catchW32 m o => Sys2Proof.Machine.execCatchW32 m o s
      | .enterW32 m o => Sys2Proof.Machine.execEnterW32 m o s
      | .ldraaF32 m o => Sys2Proof.Machine.execLdraaF32 m o s
      | .flushpteW32 m o => Sys2Proof.Machine.execFlushpteW32 m o s
      | .flushpbeW32 m o => Sys2Proof.Machine.execFlushpbeW32 m o s
      | .flushdceW32 m o => Sys2Proof.Machine.execFlushdceW32 m o s
      | .unimpMonE m o => Sys2Proof.Machine.execUnimpMonE m o s
      | .popnS32 m o => Sys2Proof.Machine.execPopnS32 m o s
      | .unimpFive00 sm dm src dst => Sys2Proof.Machine.execUnimpFive00 sm dm src dst s
      | .oriG16 sm dm src dst => Sys2Proof.Machine.execOriG16 sm dm src dst s
      | .oriG32 sm dm src dst => Sys2Proof.Machine.execOriG32 sm dm src dst s
      | .andiG16 sm dm src dst => Sys2Proof.Machine.execAndiG16 sm dm src dst s
      | .andiG32 sm dm src dst => Sys2Proof.Machine.execAndiG32 sm dm src dst s
      | .addiG16 sm dm src dst => Sys2Proof.Machine.execAddiG16 sm dm src dst s
      | .addiG32 sm dm src dst => Sys2Proof.Machine.execAddiG32 sm dm src dst s
      | .movaG16 sm dm src dst => Sys2Proof.Machine.execMovaG16 sm dm src dst s
      | .movaG32 sm dm src dst => Sys2Proof.Machine.execMovaG32 sm dm src dst s
      | .uremG16 sm dm src dst => Sys2Proof.Machine.execUremG16 sm dm src dst s
      | .uremG32 sm dm src dst => Sys2Proof.Machine.execUremG32 sm dm src dst s
      | .movG16 sm dm src dst => Sys2Proof.Machine.execMovG16 sm dm src dst s
      | .movG32 sm dm src dst => Sys2Proof.Machine.execMovG32 sm dm src dst s
      | .dqmG16 sm dm src dst => Sys2Proof.Machine.execDqmG16 sm dm src dst s
      | .dqmG32 sm dm src dst => Sys2Proof.Machine.execDqmG32 sm dm src dst s
      | .unimpThree08 sm dm src dst => Sys2Proof.Machine.execUnimpThree08 sm dm src dst s
      | .unimpFive08 sm dm src dst => Sys2Proof.Machine.execUnimpFive08 sm dm src dst s
      | .unimpThree09 sm dm src dst => Sys2Proof.Machine.execUnimpThree09 sm dm src dst s
      | .unimpFive09 sm dm src dst => Sys2Proof.Machine.execUnimpFive09 sm dm src dst s
      | .unimpThree0A sm dm src dst => Sys2Proof.Machine.execUnimpThree0A sm dm src dst s
      | .unimpFive0A sm dm src dst => Sys2Proof.Machine.execUnimpFive0A sm dm src dst s
      | .unimpThree0B sm dm src dst => Sys2Proof.Machine.execUnimpThree0B sm dm src dst s
      | .unimpFive0B sm dm src dst => Sys2Proof.Machine.execUnimpFive0B sm dm src dst s
      | .taddG16 sm dm src dst => Sys2Proof.Machine.execTaddG16 sm dm src dst s
      | .taddG32 sm dm src dst => Sys2Proof.Machine.execTaddG32 sm dm src dst s
      | .tsubG16 sm dm src dst => Sys2Proof.Machine.execTsubG16 sm dm src dst s
      | .tsubG32 sm dm src dst => Sys2Proof.Machine.execTsubG32 sm dm src dst s
      | .unimpThree0E sm dm src dst => Sys2Proof.Machine.execUnimpThree0E sm dm src dst s
      | .unimpFive0E sm dm src dst => Sys2Proof.Machine.execUnimpFive0E sm dm src dst s
      | .unimpThree0F sm dm src dst => Sys2Proof.Machine.execUnimpThree0F sm dm src dst s
      | .unimpFive0F sm dm src dst => Sys2Proof.Machine.execUnimpFive0F sm dm src dst s
      | .unimpThree10 sm dm src dst => Sys2Proof.Machine.execUnimpThree10 sm dm src dst s
      | .unimpFive10 sm dm src dst => Sys2Proof.Machine.execUnimpFive10 sm dm src dst s
      | .unimpThree11 sm dm src dst => Sys2Proof.Machine.execUnimpThree11 sm dm src dst s
      | .unimpFive11 sm dm src dst => Sys2Proof.Machine.execUnimpFive11 sm dm src dst s
      | .unimpThree12 sm dm src dst => Sys2Proof.Machine.execUnimpThree12 sm dm src dst s
      | .unimpFive12 sm dm src dst => Sys2Proof.Machine.execUnimpFive12 sm dm src dst s
      | .unimpThree13 sm dm src dst => Sys2Proof.Machine.execUnimpThree13 sm dm src dst s
      | .unimpFive13 sm dm src dst => Sys2Proof.Machine.execUnimpFive13 sm dm src dst s
      | .unimpThree14 sm dm src dst => Sys2Proof.Machine.execUnimpThree14 sm dm src dst s
      | .unimpFive14 sm dm src dst => Sys2Proof.Machine.execUnimpFive14 sm dm src dst s
      | .unimpThree15 sm dm src dst => Sys2Proof.Machine.execUnimpThree15 sm dm src dst s
      | .unimpFive15 sm dm src dst => Sys2Proof.Machine.execUnimpFive15 sm dm src dst s
      | .unimpThree16 sm dm src dst => Sys2Proof.Machine.execUnimpThree16 sm dm src dst s
      | .unimpFive16 sm dm src dst => Sys2Proof.Machine.execUnimpFive16 sm dm src dst s
      | .unimpThree17 sm dm src dst => Sys2Proof.Machine.execUnimpThree17 sm dm src dst s
      | .unimpFive17 sm dm src dst => Sys2Proof.Machine.execUnimpFive17 sm dm src dst s
      | .unimpThree18 sm dm src dst => Sys2Proof.Machine.execUnimpThree18 sm dm src dst s
      | .unimpFive18 sm dm src dst => Sys2Proof.Machine.execUnimpFive18 sm dm src dst s
      | .unimpThree19 sm dm src dst => Sys2Proof.Machine.execUnimpThree19 sm dm src dst s
      | .unimpFive19 sm dm src dst => Sys2Proof.Machine.execUnimpFive19 sm dm src dst s
      | .unimpThree1A sm dm src dst => Sys2Proof.Machine.execUnimpThree1A sm dm src dst s
      | .unimpFive1A sm dm src dst => Sys2Proof.Machine.execUnimpFive1A sm dm src dst s
      | .unimpThree1B sm dm src dst => Sys2Proof.Machine.execUnimpThree1B sm dm src dst s
      | .unimpFive1B sm dm src dst => Sys2Proof.Machine.execUnimpFive1B sm dm src dst s
      | .unimpThree1C sm dm src dst => Sys2Proof.Machine.execUnimpThree1C sm dm src dst s
      | .unimpFive1C sm dm src dst => Sys2Proof.Machine.execUnimpFive1C sm dm src dst s
      | .cmpgtG16 sm dm src dst => Sys2Proof.Machine.execCmpgtG16 sm dm src dst s
      | .cmpgtG32 sm dm src dst => Sys2Proof.Machine.execCmpgtG32 sm dm src dst s
      | .cmphiG16 sm dm src dst => Sys2Proof.Machine.execCmphiG16 sm dm src dst s
      | .cmphiG32 sm dm src dst => Sys2Proof.Machine.execCmphiG32 sm dm src dst s
      | .cmpeqG16 sm dm src dst => Sys2Proof.Machine.execCmpeqG16 sm dm src dst s
      | .cmpeqG32 sm dm src dst => Sys2Proof.Machine.execCmpeqG32 sm dm src dst s
      | .subG16 sm dm src dst => Sys2Proof.Machine.execSubG16 sm dm src dst s
      | .subG32 sm dm src dst => Sys2Proof.Machine.execSubG32 sm dm src dst s
      | .orG16 sm dm src dst => Sys2Proof.Machine.execOrG16 sm dm src dst s
      | .orG32 sm dm src dst => Sys2Proof.Machine.execOrG32 sm dm src dst s
      | .andG16 sm dm src dst => Sys2Proof.Machine.execAndG16 sm dm src dst s
      | .andG32 sm dm src dst => Sys2Proof.Machine.execAndG32 sm dm src dst s
      | .addG16 sm dm src dst => Sys2Proof.Machine.execAddG16 sm dm src dst s
      | .addG32 sm dm src dst => Sys2Proof.Machine.execAddG32 sm dm src dst s
      | .xorG16 sm dm src dst => Sys2Proof.Machine.execXorG16 sm dm src dst s
      | .xorG32 sm dm src dst => Sys2Proof.Machine.execXorG32 sm dm src dst s
      | .remG16 sm dm src dst => Sys2Proof.Machine.execRemG16 sm dm src dst s
      | .remG32 sm dm src dst => Sys2Proof.Machine.execRemG32 sm dm src dst s
      | .mulG16 sm dm src dst => Sys2Proof.Machine.execMulG16 sm dm src dst s
      | .mulG32 sm dm src dst => Sys2Proof.Machine.execMulG32 sm dm src dst s
      | .divG16 sm dm src dst => Sys2Proof.Machine.execDivG16 sm dm src dst s
      | .divG32 sm dm src dst => Sys2Proof.Machine.execDivG32 sm dm src dst s
      | .unimpThree28 sm dm src dst => Sys2Proof.Machine.execUnimpThree28 sm dm src dst s
      | .unimpFive28 sm dm src dst => Sys2Proof.Machine.execUnimpFive28 sm dm src dst s
      | .unimpThree29 sm dm src dst => Sys2Proof.Machine.execUnimpThree29 sm dm src dst s
      | .unimpFive29 sm dm src dst => Sys2Proof.Machine.execUnimpFive29 sm dm src dst s
      | .unimpThree2A sm dm src dst => Sys2Proof.Machine.execUnimpThree2A sm dm src dst s
      | .unimpFive2A sm dm src dst => Sys2Proof.Machine.execUnimpFive2A sm dm src dst s
      | .unimpThree2B sm dm src dst => Sys2Proof.Machine.execUnimpThree2B sm dm src dst s
      | .unimpFive2B sm dm src dst => Sys2Proof.Machine.execUnimpFive2B sm dm src dst s
      | .shrG16 sm dm src dst => Sys2Proof.Machine.execShrG16 sm dm src dst s
      | .shrG32 sm dm src dst => Sys2Proof.Machine.execShrG32 sm dm src dst s
      | .ushrG16 sm dm src dst => Sys2Proof.Machine.execUshrG16 sm dm src dst s
      | .ushrG32 sm dm src dst => Sys2Proof.Machine.execUshrG32 sm dm src dst s
      | .shlG16 sm dm src dst => Sys2Proof.Machine.execShlG16 sm dm src dst s
      | .shlG32 sm dm src dst => Sys2Proof.Machine.execShlG32 sm dm src dst s
      | .udivG16 sm dm src dst => Sys2Proof.Machine.execUdivG16 sm dm src dst s
      | .udivG32 sm dm src dst => Sys2Proof.Machine.execUdivG32 sm dm src dst s
      | .sub3G16 sm dm src dst => Sys2Proof.Machine.execSub3G16 sm dm src dst s
      | .sub3G32 sm dm src dst => Sys2Proof.Machine.execSub3G32 sm dm src dst s
      | .or3G16 sm dm src dst => Sys2Proof.Machine.execOr3G16 sm dm src dst s
      | .or3G32 sm dm src dst => Sys2Proof.Machine.execOr3G32 sm dm src dst s
      | .and3G16 sm dm src dst => Sys2Proof.Machine.execAnd3G16 sm dm src dst s
      | .and3G32 sm dm src dst => Sys2Proof.Machine.execAnd3G32 sm dm src dst s
      | .add3G16 sm dm src dst => Sys2Proof.Machine.execAdd3G16 sm dm src dst s
      | .add3G32 sm dm src dst => Sys2Proof.Machine.execAdd3G32 sm dm src dst s
      | .xor3G16 sm dm src dst => Sys2Proof.Machine.execXor3G16 sm dm src dst s
      | .xor3G32 sm dm src dst => Sys2Proof.Machine.execXor3G32 sm dm src dst s
      | .rem3G16 sm dm src dst => Sys2Proof.Machine.execRem3G16 sm dm src dst s
      | .rem3G32 sm dm src dst => Sys2Proof.Machine.execRem3G32 sm dm src dst s
      | .mul3G16 sm dm src dst => Sys2Proof.Machine.execMul3G16 sm dm src dst s
      | .mul3G32 sm dm src dst => Sys2Proof.Machine.execMul3G32 sm dm src dst s
      | .div3G16 sm dm src dst => Sys2Proof.Machine.execDiv3G16 sm dm src dst s
      | .div3G32 sm dm src dst => Sys2Proof.Machine.execDiv3G32 sm dm src dst s
      | .unimpThree38 sm dm src dst => Sys2Proof.Machine.execUnimpThree38 sm dm src dst s
      | .unimpFive38 sm dm src dst => Sys2Proof.Machine.execUnimpFive38 sm dm src dst s
      | .unimpThree39 sm dm src dst => Sys2Proof.Machine.execUnimpThree39 sm dm src dst s
      | .unimpFive39 sm dm src dst => Sys2Proof.Machine.execUnimpFive39 sm dm src dst s
      | .unimpThree3A sm dm src dst => Sys2Proof.Machine.execUnimpThree3A sm dm src dst s
      | .unimpFive3A sm dm src dst => Sys2Proof.Machine.execUnimpFive3A sm dm src dst s
      | .unimpThree3B sm dm src dst => Sys2Proof.Machine.execUnimpThree3B sm dm src dst s
      | .unimpFive3B sm dm src dst => Sys2Proof.Machine.execUnimpFive3B sm dm src dst s
      | .shr3G16 sm dm src dst => Sys2Proof.Machine.execShr3G16 sm dm src dst s
      | .shr3G32 sm dm src dst => Sys2Proof.Machine.execShr3G32 sm dm src dst s
      | .ushr3G16 sm dm src dst => Sys2Proof.Machine.execUshr3G16 sm dm src dst s
      | .ushr3G32 sm dm src dst => Sys2Proof.Machine.execUshr3G32 sm dm src dst s
      | .shl3G16 sm dm src dst => Sys2Proof.Machine.execShl3G16 sm dm src dst s
      | .shl3G32 sm dm src dst => Sys2Proof.Machine.execShl3G32 sm dm src dst s
      | .unimpThree3F sm dm src dst => Sys2Proof.Machine.execUnimpThree3F sm dm src dst s
      | .unimpFive3F sm dm src dst => Sys2Proof.Machine.execUnimpFive3F sm dm src dst s

end Sys2Proof.Machine
end

