-- ==== Sys2Proof/Machine/Fetch.lean ====
section
/-! DEFINITION. The fetch of the instruction at PC (spec/20_memory.md R66, R71, R109; spec/30_encoding.md R164). -/

namespace Sys2Proof.Machine

/-- What the prefetch buffer supplies goes on to the instruction cache (47_other.md R335). -/
def keepStale (a : Word) (v : Parcel) (s : State) : State :=
  if v ∈ staleValues a s.pfbStale then s.setIcStale (addNew ⟨a, v⟩ s.icStale) else s

/-- The parcel at a translated address: one the prefetch buffer may hold, freely, else the bus's (R71, R109, log 18). -/
def parcelAt (va : Word) (m : Mapping) (line : Option TextLine) (s : State) : Res (Parcel × Option TextLine) :=
  let pa := m.address va
  let (held, s) := heldParcel pa s
  match held with
  | some v => .ok (v, line) (noteText va m (keepStale pa v s))
  | none => (busParcel false pa line s).bind fun v s => .ok v (noteText va m s)

/-- The parcel at a virtual address where the instruction cache does not supply it (R71): bit 0 is dropped, the stack
cache is not consulted, and text is big-endian. The prefetch unit may have read ahead before it (R108). -/
def fetchParcel (va0 : Word) (line : Option TextLine) (s : State) : Res (Parcel × Option TextLine) :=
  let va := textAlign va0
  (readAhead false s).bind fun _ s =>
  (resolve false .text (pswX s.psw) va s).bind fun m s => parcelAt va m line s

/-- The parcels of the instruction at PC, from the instruction cache or fetched. -/
def fetchInstruction (s : State) : Res (List Parcel) := fetchAt fetchParcel s.pc s

/-- The instruction at PC. -/
def fetchDecode (s : State) : Res Instr :=
  (fetchInstruction s).bind fun ps s =>
  match decodeParcels ps with
  | .ok (i, _) => .ok i s
  | .error _ => .refuse .undecodable

/-- Where the parcel at a virtual address is fetched from. -/
def textAddress (va : Word) (s : State) : Word :=
  match translate .text (pswX s.psw) (textAlign va) s with
  | .ok pa _ => pa
  | _ => textAlign va

/-- Put parcels where they will be fetched from, at a virtual address and on, and leave no cache anything else to supply
there. -/
def placeParcels (va : Word) (ps : List Parcel) (s : State) : State :=
  match ps with
  | [] => s
  | p :: rest =>
    let a := textAddress va s
    let s := s.setMem ((Memory.write s.mem (byteKey a 0) (p.extractLsb' 8 8)).write (byteKey a 1) (p.extractLsb' 0 8))
    let s := s.setPfbStale (s.pfbStale.filter fun e => e.addr != a)
    let s := s.setIcStale (s.icStale.filter fun e => e.addr != a)
    placeParcels (va + 2#32) rest (s.setTextMaps (s.textMaps.filter fun m => m.page != pageOf va))

end Sys2Proof.Machine
end

