-- ==== Sys2Proof/Machine/Events.lean ====
section
/-! DEFINITION. What happens at an instruction boundary and after an instruction: inputs, interrupts, traces, folding,
timers (spec/60_exceptions.md R350 to R405; spec/70_reset_and_hazards.md R446, R458). -/

namespace Sys2Proof.Machine

/-- Nothing on the pins: IL all ones (60_exceptions.md R351). -/
def idlePins : Pins := ⟨7#3, false, [], []⟩

/-- The inputs of this step: the next record, or idle pins when there is none (log 12), with those of the step's bus
transactions put in place of any that are left. -/
def nextPins (s : State) : Pins × State :=
  match s.pins with
  | [] => (idlePins, s.setTurns [])
  | p :: rest => (p, (s.setPins rest).setTurns p.turns)

/-- Written CONFIG bits and a written addressing mode may take effect at any boundary (70_reset_and_hazards.md R446,
10_state.md R28; logs 20, 21). -/
def applyWrites (s : State) : State :=
  let (c, s) := drawMix 0xFFFFFFFF#32 s.configEff s.config s
  let s := s.setConfigEff c
  if s.vpEff = pswVP s.psw then s
  else
    let (b, s) := drawBit s
    if b then s.setVpEff (pswVP s.psw) else s

/-- The NMI latch arms when IL has left 0 (R354). -/
def armNmi (p : Pins) (s : State) : State := if p.il = 0#3 then s else s.setNmiArmed true

/-- The boundary with the inputs `p`: what the prefetch unit did before and after other bus masters wrote, and what may
change between instructions. An event is HRESET ending a prefetch (R411). -/
def boundary (p : Pins) (s : State) : Res Unit :=
  ((prefetch p.hreset s).onTrap (otherMasters p.writes)).bind fun _ s =>
  (prefetch p.hreset (otherMasters p.writes s)).bind fun _ s =>
  .ok () (applyWrites (armNmi p s))

/-- Whether a request at a level is acceptable (R352). -/
def acceptable (level : Nat) (s : State) : Bool := level == 0 || decide (level < (pswIPL s.psw).toNat)

/-- Whether Timer1's request is acceptable (R356). -/
def timer1Due (s : State) : Bool := s.t1Pending && configT1IE s.configEff && acceptable 1 s

/-- Whether Timer2's request is acceptable (R356). -/
def timer2Due (s : State) : Bool := s.t2Pending && configT2IE s.configEff && acceptable 1 s

/-- Whether the external request at levels 1 to 6 is acceptable (R351, R352). -/
def externalDue (il : BitVec 3) (s : State) : Bool := il != 0#3 && il != 7#3 && acceptable il.toNat s

/-- The interrupt taken at this boundary, as its vector's offset and the state with its latch or request cleared (R352
to R356; D21, log 15): none while the NMI latch is not armed; NMI first; then the lowest level, and at level 1 the
external request, Timer1, Timer2. -/
def pendingInterrupt (il : BitVec 3) (s : State) : Option (Word × State) :=
  if !s.nmiArmed then none
  else if il = 0#3 then some (16#32, s.setNmiArmed false)
  else if externalDue il s && (il == 1#3 || !(timer1Due s || timer2Due s)) then
    some (16#32 + 4#32 * il.setWidth 32, s)
  else if timer1Due s then some (44#32, s.setT1Pending false)
  else if timer2Due s then some (48#32, s.setT2Pending false)
  else none

/-- Whether a parsed instruction is a jump, call or return, which ends a basic block (R403). -/
def endsBlock (v : View) : Bool :=
  match v with
  | .monadic .call _ _ _ => true
  | .monadic .ret _ _ _ => true
  | .monadic .jmp _ _ _ => true
  | .monadic (.jmpIf _) _ _ _ => true
  | _ => false

/-- Whether it is KCALL, KRET or CRET, which are never traced (R402, R405). -/
def untraceable (v : View) : Bool :=
  match v with
  | .monadic .kcall _ _ _ => true
  | .niladic .kret => true
  | .niladic .cret => true
  | _ => false

/-- Whether a one-parcel jump can be folded into it (70_reset_and_hazards.md R458): a one-parcel instruction of opcode
0x08 or above, or a three-parcel dyadic; KRET and CRET do not go on to the next parcel. -/
def takesFold (px : Bool) (v : View) : Bool :=
  match v with
  | .dyadic _ f => !px && decide (f.parcels ≤ 3)
  | .monadic _ _ _ _ => false
  | .niladic .kret => false
  | .niladic .cret => false
  | .niladic _ => true

/-- Whether it is a one-parcel jump, which can be folded (R458). -/
def foldableJump (px : Bool) (v : View) : Bool :=
  match v with
  | .monadic .jmp _ _ parcels => !px && parcels == 1
  | .monadic (.jmpIf _) _ _ parcels => !px && parcels == 1
  | _ => false

/-- Whether an interlocked instruction or a CPU prefix: a serialising point (R376, 20_memory.md R103). -/
def serialising (px : Bool) (v : View) : Bool :=
  px || match v with
    | .dyadic (.lock _) _ => true
    | _ => false

/-- Whether the instruction has a register that it writes as its destination. -/
def writesRegister (r : Reg) (px : Bool) (v : View) : Bool :=
  match v with
  | .dyadic op f =>
    let writing := match op with
      | .binary _ toAcc => !toAcc
      | .lock _ => true
      | .tagged _ => true
      | .mov => true
      | _ => false
    writing && isRegister px f.dst && Reg.ofField f.dst.field.value == some r
  | _ => false

/-- What a step was, for the timers and tracing. -/
structure Done where
  /-- The instruction, unless an event took the step. -/
  view   : Option (Bool × View)
  /-- Whether it is a jump folded into the instruction before. -/
  folded : Bool
  deriving DecidableEq, Repr

/-- Whether the step's instruction completed (R397). -/
def Done.completed (d : Done) (s : State) : Bool := d.view.isSome && s.ended == .completed

/-- Whether a completed instruction stored in its destination: TADD and TSUB do not where F comes out 1 (46_tagged.md
R316, R317). -/
def stored (v : View) (s : State) : Bool :=
  match v with
  | .dyadic (.tagged _) _ => !s.psw.getLsbD flagF
  | _ => true

/-- Whether the step's instruction completed and wrote a register. -/
def Done.wrote (d : Done) (r : Reg) (s : State) : Bool :=
  d.completed s &&
    match d.view with
    | some (px, v) => writesRegister r px v && stored v s
    | none => false

/-- What a timer may count (10_state.md R30). -/
inductive Counted where
  | cycles
  | instructions
  | nothing
  | unlisted
  deriving DecidableEq, Repr

/-- Timer1's event (R395). -/
def timer1Event (s : State) : Counted := if configT1EV s.configEff then .instructions else .cycles

/-- Timer2's event (R396): the codes other than 0, 1 and 31 are not listed (P_TIMER2_EVENTS, log 40). -/
def timer2Event (s : State) : Counted :=
  match (configT2EV s.configEff).toNat with
  | 0 => .cycles
  | 1 => .instructions
  | 31 => .nothing
  | _ => .unlisted

/-- Whether the kernel-only gate of a timer is open in a step from `s0` to `s` (R395, R397): a level change inside the
step leaves it open or closed (log 39). -/
def gateOpen (kernelOnly : Bool) (s0 s : State) : Bool × State :=
  if !kernelOnly then (true, s)
  else if pswX s0.psw = pswX s.psw then (!pswX s.psw, s)
  else drawBit s

/-- How many events a step adds to a timer (R397, log 39): cycles are an unspecified positive number (none need pass
for a folded jump); a completed instruction is one, a folded jump none. -/
def eventCount (ev : Counted) (d : Done) (s : State) : Nat × State :=
  match ev with
  | .cycles =>
    let (w, s) := drawWord s
    (w.toNat + (if d.folded then 0 else 1), s)
  | .instructions => (if d.completed s && !d.folded then 1 else 0, s)
  | .nothing => (0, s)
  | .unlisted =>
    let (w, s) := drawWord s
    (w.toNat, s)

/-- How many of `n` events come before the write, where the step wrote the timer: freely chosen (log 39). -/
def countedEarly (wrote : Bool) (n : Nat) (s : State) : Nat × State := if wrote then drawBelow (n + 1) s else (0, s)

/-- Whether a count passes 0xFFFFFFFF (R356). -/
def overflows (t : Word) (n : Nat) : Bool := decide (4294967296 ≤ t.toNat + n)

/-- Timer1 over a step begun in `s0` (R395, R356; D33), by the fields in effect after it (DESIGN CHOICE for KRET and
CRET, log 39). -/
def advanceTimer1 (d : Done) (s0 s : State) : State :=
  let (isOpen, s) := gateOpen (configT1K s.configEff) s0 s
  if isOpen then
    let (n, s) := eventCount (timer1Event s) d s
    let (early, s) := countedEarly (d.wrote .timer1 s) n s
    let s :=
      if configT1IE s.configEff && (overflows s0.timer1 early || overflows s.timer1 (n - early)) then
        s.setT1Pending true
      else s
    s.setTimer1 (s.timer1 + BitVec.ofNat 32 (n - early))
  else s

/-- Timer2 over a step begun in `s0` (R396, R356; D33), as Timer1. -/
def advanceTimer2 (d : Done) (s0 s : State) : State :=
  let (isOpen, s) := gateOpen (configT2K s.configEff) s0 s
  if isOpen then
    let (n, s) := eventCount (timer2Event s) d s
    let (early, s) := countedEarly (d.wrote .timer2 s) n s
    let s :=
      if configT2IE s.configEff && (overflows s0.timer2 early || overflows s.timer2 (n - early)) then
        s.setT2Pending true
      else s
    s.setTimer2 (s.timer2 + BitVec.ofNat 32 (n - early))
  else s

/-- Whether the instruction that ran from `s0` to `s` is traced (R402, R403, R405; D26, log 42): by TI, when it
completed or the unimplemented sequence took its place; by TB, when it completed and ends a block. -/
def traced (d : Done) (s0 s : State) : Bool :=
  match d.view with
  | none => false
  | some (_, v) =>
    if s.ended == .event || untraceable v then false
    else if pswTI s0.psw then true
    else pswTB s0.psw && s.ended == .completed && endsBlock v

/-- Whether a jump at the new PC may be folded into the instruction that ran from `s0` to `s` (R458). -/
def mayFold (d : Done) (s0 s : State) : Bool :=
  match d.view with
  | none => false
  | some (px, v) =>
    takesFold px v && s.ended == .completed && !d.folded &&
      (match v with
       | .dyadic _ f => s.pc == textAlign (nextPc px f.parcels s0)
       | _ => s.pc == textAlign (s0.pc + 2#32))

/-- A data read with no architectural cause (20_memory.md R112): outside the stack cache its address is translated,
which may load the data TLB or NPSR and set R, and its word is read from the bus. -/
def speculateAt (va : Word) (s : State) : Res Unit :=
  if hits va s && windowOk s then .ok () s
  else dropped ((translate .read (pswX s.psw) va s).bind fun pa s => physRead false .ioBusFault pa s)

/-- `n` such reads at freely chosen addresses. -/
def speculateMany (n : Nat) (s : State) : Res Unit :=
  match n with
  | 0 => .ok () s
  | k + 1 =>
    let (va, s) := drawWord s
    (speculateAt va s).bind fun _ s => speculateMany k s

/-- Whether the step completed a conditional jump, which may have been mispredicted (R112). -/
def Done.predicts (d : Done) (s : State) : Bool :=
  d.completed s &&
    match d.view with
    | some (_, .monadic (.jmpIf _) _ _ _) => true
    | _ => false

/-- The data reads of the instructions after a mispredicted jump (R112, log 52): any number of any addresses. -/
def speculate (d : Done) (s : State) : Res Unit :=
  if d.predicts s && readsShow s then
    let (w, s) := drawWord s
    speculateMany w.toNat s
  else .ok () s

/-- What follows an instruction or event (R395 to R405). -/
def afterStep (d : Done) (s0 s : State) : State :=
  let u := if traced d s0 s then s.setTracePending true else s
  advanceTimer2 d s0 (advanceTimer1 d s0 (u.setFoldable (mayFold d s0 s)))

/-- The instruction folded into the one before, when the next is a one-parcel jump and the pair was folded, a free
choice (P_FOLDING, R404, log 41); else the state to go on from. -/
def foldedJump (s : State) : Option (Instr × State) × State :=
  if !s.foldable then (none, s)
  else
    match fetchDecode s with
    | .ok i s' =>
      match parse i with
      | some (px, v) =>
        if foldableJump px v then
          let (b, s') := drawBit s'
          if b then (some (i, s'), s') else (none, s.setFree s'.free)
        else (none, s.setFree s'.free)
      | none => (none, s.setFree s'.free)
    | .trap _ s' => (none, s.setFree s'.free)
    | _ => (none, s)

/-- Whether a bus error of an earlier store is reported at this boundary (R376, log 11): a free choice, forced by a
serialising point. -/
def reportsWrite (forced : Bool) (s : State) : Bool × State :=
  if s.writeFaults = 0 then (false, s)
  else if forced then (true, s)
  else drawBit s

/-- A change of the state a step leaves. -/
def onNext (f : State → State) (o : Host.Outcome State Fault Refusal) : Host.Outcome State Fault Refusal :=
  match o with
  | .next s => .next (f s)
  | .fault e => .fault e
  | .refused e => .refused e

/-- An event of the boundary `s0`, and what follows it. -/
def runEvent (s0 : State) (o : Host.Outcome State Fault Refusal) : Host.Outcome State Fault Refusal :=
  onNext (afterStep ⟨none, false⟩ s0) o

/-- Report the bus error of an earlier store (R376): exception 0xA with the PC of this boundary. -/
def reportWrite (s0 s : State) : Host.Outcome State Fault Refusal :=
  runEvent s0 (takeTrap .ioBusFault (s.setWriteFaults (s.writeFaults - 1)))

/-- Whether HRESET ended the last bus transaction made from `s` to `t` (R411). -/
def hresetEnded (s t : State) : Bool :=
  ((s.turns.take (s.turns.length - t.turns.length)).getLast?).any fun b => b.hreset

/-- What follows the outcome of an instruction begun in `s` at the boundary `s0`. An event is a serialising point
(R376): a store's bus error that is not reported yet is reported in its place, from before the instruction, which had no
effect (R371) and runs again; but HRESET comes before everything (R411). After a completed conditional jump the reads of
a mispredicted path may have been made (20_memory.md R112), and HRESET may end one of them. -/
def conclude (d : Done) (s0 s : State) (o : Host.Outcome State Fault Refusal) : Host.Outcome State Fault Refusal :=
  match o with
  | .next t =>
    if t.ended == .event && !hresetEnded s t && (s.writeFaults != 0 || t.writeFaults != 0) then
      reportWrite s0 (s.setWriteFaults (max s.writeFaults t.writeFaults))
    else
      match speculate d t with
      | .ok _ u => .next (afterStep d s0 u)
      | .trap e u => runEvent s0 (takeTrap e u)
      | .halt e => .fault e
      | .refuse e => .refused e
  | .fault e => .fault e
  | .refused e => .refused e

/-- Run an instruction fetched at the boundary `s0`, and what follows it. -/
def runInstr (folded : Bool) (i : Instr) (s0 s : State) : Host.Outcome State Fault Refusal :=
  conclude ⟨parse i, folded⟩ s0 s (exec i s)

/-- Whether an instruction must wait for the report of an earlier store's bus error. -/
def serialises (i : Instr) : Bool :=
  match parse i with
  | some (px, v) => serialising px v
  | none => false

/-- Fetch the instruction at PC and run it (60_exceptions.md R386, steps 4 on). A store's bus error that is not reported
yet goes before the exception of a failed fetch and before a serialising instruction (R376), not before HRESET (R411).
-/
def runNext (s0 s : State) : Host.Outcome State Fault Refusal :=
  match fetchDecode s with
  | .ok i s =>
    if serialises i && s.writeFaults != 0 then reportWrite s0 s else runInstr false i s0 s
  | .trap t s => if t != .externalReset && s.writeFaults != 0 then reportWrite s0 s else runEvent s0 (takeTrap t s)
  | .halt e => .fault e
  | .refuse e => .refused e

/-- The boundary's events in their order (R385, R386), then the instruction. -/
def runBoundary (il : BitVec 3) (s0 : State) : Host.Outcome State Fault Refusal :=
  match pendingInterrupt il s0 with
  | some (offset, s) =>
    if s0.writeFaults != 0 then reportWrite s0 s0
    else runEvent s0 (settleSequence (interruptSequence (s.vb + offset) s))
  | none =>
    let (b, s) := reportsWrite s0.tracePending s0
    if b then reportWrite s0 s
    else if s.tracePending then runEvent s0 (takeTrap .trace s)
    else runNext s0 s

end Sys2Proof.Machine
end

