-- ==== Sys2Proof/Machine/Step.lean ====
section
/-! DEFINITION. One step of the machine: the boundary's inputs, then a reset, a jump folded into the last instruction, an
event, or one instruction (spec/60_exceptions.md R386). -/

namespace Sys2Proof.Machine

/-- One step. HRESET, at the boundary or ending a prefetch (60_exceptions.md R411), resets the machine before anything
else. -/
def step (s : State) : Host.Outcome State Fault Refusal :=
  let (p, s) := nextPins s
  match boundary p s with
  | .ok _ s0 =>
    if p.hreset then .next (resetSequence true s0)
    else
      match foldedJump s0 with
      | (some (i, s'), _) => runInstr true i s0 s'
      | (none, s') => runBoundary p.il s'
  | .trap _ s0 => .next (resetSequence true s0)
  | .halt e => .fault e
  | .refuse e => .refused e

/-- The state with the instruction of a table word stored where the step fetches its next instruction. -/
def State.withFetchWord (s : State) (nbits w : Nat) : State := placeParcels s.pc (tableParcels nbits w) s

end Sys2Proof.Machine
end

