-- ==== Sys2Proof/Safety.lean ====
section
/-! DEFINITION. The terms statements use: the invariant of a state, the ordinary situation (physical addressing, RAM
everywhere, a usable stack cache window, no hazard in flight) and what operands mean in it, read directly off
spec/20_memory.md R70 and spec/30_encoding.md R141 to R146 with no fault and no free choice. -/

namespace Sys2Proof.Machine

/-- What holds in every state a run passes through: memory in its canonical form, and the bits no register has at 0
(10_state.md R16, R25, R30, R43). -/
structure Inv (s : State) : Prop where
  memory    : Memory.wf s.mem = true
  pc        : textAlign s.pc = s.pc
  psw       : s.psw &&& pswMask = s.psw
  config    : s.config &&& configMask = s.config
  configEff : s.configEff &&& configMask = s.configEff
  isp       : quadAlign s.isp = s.isp
  msp       : quadAlign s.msp = s.msp
  sp        : quadAlign s.sp = s.sp
  shad      : quadAlign s.shad = s.shad
  vb        : quadAlign s.vb = s.vb
  stb       : s.stb &&& stbMask = s.stb
  window    : s.recent.length ≤ 2
  flags     : ∀ r ∈ s.recent, r.flags &&& pswMask = r.flags

/-- An instruction that leaves no hazard for the next two (70_reset_and_hazards.md R441 to R447). -/
def Recent.harmless (r : Recent) : Bool :=
  r.flags == 0#32 && r.subword.isNone && r.shadMove.isNone && r.lostTlb.isEmpty && r.lostNpsr.isNone

/-- RAM everywhere, and no bus input still to come in this step. -/
def ramBus (s : State) : Bool := s.busMap.isEmpty && s.turns.isEmpty

/-- Physical addressing, RAM everywhere, and no hazard in flight. -/
def plain (s : State) : Bool := !s.vpEff && ramBus s && s.recent.all Recent.harmless

/-- The stack cache can be relied on (10_state.md R47). -/
def usable (s : State) : Bool := !configSC s.configEff || windowOk s

/-- An access relative to the CSP can be relied on: the CSP is SP, or the address is not in the stack cache
(20_memory.md R78, log 28). -/
def firm (va : Word) (s : State) : Bool := pswCSP s.psw || !hits va s

/-- The ordinary situation. -/
def calm (s : State) : Bool := plain s && usable s

/-- The `n` bytes a data access at `va` reads (R70, physical addressing). -/
def load (n : Nat) (va : Word) (s : State) : Word :=
  laneGet n (laneAddr (little s) n va) (if hits va s then readCell va s else Memory.readBE s.mem (wordAlign va) 4)

/-- The state after the low `n` bytes of `v` are stored at `va` (R70, physical addressing). -/
def store (n : Nat) (va v : Word) (s : State) : State :=
  if hits va s then writeCell va (lanePut n (laneAddr (little s) n va) (readCell va s) v) s
  else physStore (laneAddr (little s) n va) n v s

/-- The address of a memory operand (R146's opaddr). -/
def operandAddress (px : Bool) (o : Operand) (s : State) : Word :=
  match modeKind px o.mode with
  | some .absolute => o.field.address s
  | some .stack => stackAddress o s
  | some .indirect => load 4 (stackAddress o s) s
  | _ => 0#32

/-- Whether an operand can be reached: its mode legal, its register there, its addresses aligned to `size` and 4, and
what it reaches relative to the CSP firm. -/
def operandReady (px : Bool) (size : Nat) (o : Operand) (s : State) : Bool :=
  match modeKind px o.mode with
  | some .absolute => aligned (operandAddress px o s) size
  | some .stack => aligned (operandAddress px o s) size && firm (operandAddress px o s) s
  | some .indirect =>
    aligned (stackAddress o s) 4 && firm (stackAddress o s) s && aligned (operandAddress px o s) size
  | some .immediate => true
  | some .register => (Reg.ofField o.field.value).isSome
  | none => false

/-- An indirect operand whose pointer can be read and whose target is off `size`. -/
def IndirectOff (px : Bool) (size : Nat) (o : Operand) (s : State) : Prop :=
  modeKind px o.mode = some .indirect ∧ firm (stackAddress o s) s = true ∧ aligned (operandAddress px o s) size = false

/-- The register an operand names. -/
def operandRegister (px : Bool) (o : Operand) : Option Reg :=
  if isRegister px o then Reg.ofField o.field.value else none

/-- The 32-bit value of an operand (R146's opval). -/
def operandValue (px : Bool) (o : Operand) (s : State) : Word :=
  if isImmediate o then o.field.value
  else match operandRegister px o with
    | some r => (readRegister r s).1
    | none =>
      extend (modeSize px o.mode) (modeSigned o.mode) (load (modeSize px o.mode) (operandAddress px o s) s)

/-- The state after an operand is stored to (R146's opstore), its address computed in `s0`. -/
def storeOperand (px : Bool) (o : Operand) (v : Word) (s0 s : State) : State :=
  match operandRegister px o with
  | some r => writeRegister r v s
  | none => store (modeSize px o.mode) (operandAddress px o s0) v s

/-- PSW once an instruction has stored its result, leaving `p` in PSW: its flags are merged in, but where its rule
writes them before the store (`early`: 40_arithmetic.md R189, R191, 46_tagged.md R316, R317) a store in PSW comes last.
-/
def pswAfter (early px : Bool) (o : Operand) (c : Calc) (p : Word) : Word :=
  if early && operandRegister px o == some .psw then p else c.psw p

/-- Whether the destination may be stored to: not an immediate (R144), and a register only at kernel level (R145). -/
def operandWritable (px : Bool) (o : Operand) (s : State) : Bool :=
  !isImmediate o && !(isRegister px o && pswX s.psw)

/-- At most one register is read (10_state.md R42). -/
def oneRegister (px : Bool) (f : Form) : Bool := !(isRegister px f.src && isRegister px f.dst)

/-- An instruction done: PC at the next parcel, the state otherwise as given. -/
def completed (target : Word) (r : Recent) (s : State) : State :=
  ((s.setPc (textAlign target)).setRecent (r :: s.recent.take 1)).setEnded .completed

/-- Whether each of the given frame offsets below the base, and the vector word, lies outside the stack cache (R78). -/
def frameClear (base vector : Word) (s : State) : Bool :=
  usable s && !hits (base - 4#32) s && !hits (base - 8#32) s && !hits (base - 12#32) s && !hits vector s

/-- The words of a block of `n` words. -/
def loadWords (n : Nat) (va : Word) (s : State) : List Word :=
  match n with
  | 0 => []
  | k + 1 => load 4 va s :: loadWords k (va + 4#32) s

/-- The state after consecutive words are stored from `va` on. -/
def storeWords (va : Word) (ws : List Word) (s : State) : State :=
  match ws with
  | [] => s
  | w :: rest => storeWords (va + 4#32) rest (store 4 va w s)

/-- The target of a control-flow operand (30_encoding.md R133). -/
def flowAddress (m : BitVec 4) (o : Word) (s : State) : Word :=
  match m.toNat with
  | 0xC => load 4 o s
  | 0xD => load 4 (csp s + o) s
  | 0xE => s.pc + o
  | _ => o

/-- Whether its indirection word, if it has one, is aligned, and firm if it is relative to the CSP. -/
def flowSound (m : BitVec 4) (o : Word) (s : State) : Bool :=
  flowAligned m o s && (m != 0xD#4 || firm (csp s + o) s)

/-- Whether it can be reached: the mode is a word mode, and an indirection word can be read. -/
def flowReady (m : BitVec 4) (o : Word) (s : State) : Bool :=
  m == 0xE#4 || m == 0xF#4 || (wordMode m && calm s && flowSound m o s)

/-- The address an operand of ENTER or CATCH names (44_program_control.md R266, R263). -/
def frameAddress (m : BitVec 4) (o : Word) (s : State) : Word :=
  match m.toNat with
  | 0xC => load 4 o s
  | 0xD => csp s + o
  | 0xE => load 4 (csp s + o) s
  | _ => o

/-- Whether it can be reached. -/
def frameReady (m : BitVec 4) (o : Word) (s : State) : Bool :=
  match m.toNat with
  | 0xC => aligned o 4
  | 0xD => true
  | 0xE => aligned (csp s + o) 4 && firm (csp s + o) s
  | 0xF => true
  | _ => false

/-- Whether ENTER may have this operand (44_program_control.md R266): a stack offset is negative, and beyond SCSIZE in
the three-parcel form. -/
def enterLegal (m : BitVec 4) (o : Word) (parcels : Nat) : Bool :=
  m != 0xD#4 || (o.getLsbD 31 && (parcels != 3 || decide (signed o < -256)))

/-- The parcels memory holds from a text address on, with physical addressing. -/
def textAt (va : Word) (n : Nat) (s : State) : List Parcel :=
  match n with
  | 0 => []
  | k + 1 => Memory.parcel s.mem (textAlign va) :: textAt (va + 2#32) k s

/-- A boundary where nothing but the next instruction can happen: no input, no request, no report and no trace due,
nothing cached or prefetched, and every CONFIG and PSW write in effect. -/
structure QuietBoundary (s : State) : Prop where
  pins         : s.pins = []
  nmiArmed     : s.nmiArmed = true
  textTlb      : s.textTlb = []
  dataTlb      : s.dataTlb = []
  textNpsr     : s.textNpsr = none
  dataNpsr     : s.dataNpsr = none
  prefetch     : mayPrefetch s = false
  pfbStale     : s.pfbStale = []
  icStale      : s.icStale = []
  textMaps     : s.textMaps = []
  config       : s.configEff = s.config
  addressing   : s.vpEff = pswVP s.psw
  t1Pending    : s.t1Pending = false
  t2Pending    : s.t2Pending = false
  tracePending : s.tracePending = false
  writeFaults  : s.writeFaults = 0
  foldable     : s.foldable = false
  turns        : s.turns = []

/-- A memory fault waits at an aligned address: a bus error with physical addressing, or with virtual addressing an
invalid segment that no cached translation covers. -/
def Unreachable (va : Word) (s : State) : Prop :=
  aligned va 4 = true ∧
  ((s.vpEff = false ∧ busAnswer s.busMap va = .busError) ∨
    (s.vpEff = true ∧ s.busMap = [] ∧ s.dataTlb = [] ∧ s.dataNpsr = none ∧
      entryValid (Memory.readBE s.mem (steAddr s.stb va) 4) = false))

/-- What an internally caused reset of `s` leaves (70_reset_and_hazards.md R421, log 44). -/
structure Restarted (s t : State) : Prop where
  pc      : t.pc = 0#32
  psw     : t.psw = 0#32
  config  : t.config = 0#32
  shad    : t.shad = quadAlign s.psw
  dataTlb : t.dataTlb = []
  textTlb : t.textTlb = []
  vb      : t.vb = s.vb
  stb     : t.stb = s.stb
  msp     : t.msp = s.msp
  ended   : t.ended = .event

/-- Whether byte `k` of memory is one of the `n` bytes from `a` up. -/
def inBytes (a : Word) (n k : Nat) : Prop := ∃ j, j < n ∧ byteKey a j = k

/-- Memory is the same but for the `n` bytes from `a` up. -/
def SameMemoryBut (a : Word) (n : Nat) (s t : State) : Prop :=
  ∀ k, ¬ inBytes a n k → Memory.read t.mem k = Memory.read s.mem k

/-- The stack cache is the same but for the cell of `va`. -/
def SameCellsBut (va : Word) (s t : State) : Prop := ∀ i : Fin 64, i ≠ cellIndex va → t.cache[i] = s.cache[i]

/-- What a store to a place leaves alone: all but the bytes and the cell it may go to; everything, when the place is
not in memory. -/
def Place.Frame (p : Place) (s t : State) : Prop :=
  match p with
  | .memory _ va n _ => SameMemoryBut (laneAddr (little s) n va) n s t ∧ SameCellsBut va s t
  | _ => t.mem = s.mem ∧ t.cache = s.cache

/-- The PSW flags a two-operand instruction may write (10_state.md R20). -/
def DyOp.flags (op : DyOp) : Word :=
  match op with
  | .binary .add _ => maskCV
  | .binary .sub _ => maskCV
  | .binary .mul _ => maskCV
  | .binary .div _ => flagBit flagV true
  | .binary .rem _ => flagBit flagV true
  | .binary .udiv _ => flagBit flagC true
  | .binary .urem _ => flagBit flagC true
  | .compare _ => flagBit flagF true
  | .tagged _ => flagBit flagF true ||| maskCV
  | _ => 0#32

/-- Whether an operation writes its second operand. -/
def DyOp.writes (op : DyOp) : Bool :=
  match op with
  | .binary _ toAcc => !toAcc
  | .lock _ => true
  | .tagged _ => true
  | .mov => true
  | .mova => true
  | .dqm => true
  | .compare _ => false
  | .unimplemented => false

/-- Two states with the same control registers but PC, PSW and SHAD. -/
structure SameRegisters (s t : State) : Prop where
  config : t.config = s.config
  isp    : t.isp = s.isp
  msp    : t.msp = s.msp
  sp     : t.sp = s.sp
  vb     : t.vb = s.vb
  stb    : t.stb = s.stb
  fault  : t.fault = s.fault
  timer1 : t.timer1 = s.timer1
  timer2 : t.timer2 = s.timer2

/-- Two states with the same hidden bits of 10_state.md R44 that instructions do not touch. -/
structure SameEvents (s t : State) : Prop where
  t1Pending    : t.t1Pending = s.t1Pending
  t2Pending    : t.t2Pending = s.t2Pending
  nmiArmed     : t.nmiArmed = s.nmiArmed
  tracePending : t.tracePending = s.tracePending
  busMap       : t.busMap = s.busMap
  pins         : t.pins = s.pins

end Sys2Proof.Machine
end

