-- ==== Sys2Proof/Certificates/Slice0/Obligations.lean ====
section
/-! DEFINITION. The statements for the provers. `parse i = some (px, v)` says which operation an instruction is and that
a CPU prefix stands before it (`px`); each docstring names the mnemonics. -/

section
open Sys2Proof Sys2Proof.Machine

/-! Encoding -/

/-- Every well-formed instruction of the opcode table decodes from its encoding, whatever follows, and from its bytes.
-/
def Obligations.DecodeOfEncode : Prop :=
  ∀ (i : Instr) (rest : List Parcel), i.wellFormed = true →
    decodeParcels (encode i ++ rest) = .ok (i, rest) ∧ decodeBytes (bytesOfParcels (encode i)) = .ok i

/-- Whatever decodes is well-formed and is the encoding of what it decodes to, so each word has one meaning; and any six
parcels begin with an instruction (R164: every first parcel selects a row). -/
def Obligations.EncodeOfDecode : Prop :=
  (∀ (ps rest : List Parcel) (i : Instr), decodeParcels ps = .ok (i, rest) →
    i.wellFormed = true ∧ ps = encode i ++ rest) ∧
  ∀ ps : List Parcel, 6 ≤ ps.length → ∃ i rest, decodeParcels ps = .ok (i, rest)

/-- Words written out from the encoding tables decode to the instructions they stand for, and are what those
instructions encode to (the fields of a one-parcel word, NOP's and CPU's among them, are log 1's choice, the spec's own
D3; the order of the operand parcels of a five-parcel instruction is log 2's, D6). -/
def Obligations.SpecWordsDecode : Prop :=
  decodeParcels [0x2C02#16] = .ok (.nop, []) ∧
  decodeParcels [0x2C00#16, 0x867D#16, 0x0005#16, 0x0008#16] = .ok (.cpuWide (.movG16 0x7#4 0xD#4 0x0005#16 0x0008#16), []) ∧
  decodeParcels [0xA3FD#16, 0xFFFF#16, 0x0004#16] = .ok (.addG16 0xF#4 0xD#4 0xFFFF#16 0x0004#16, []) ∧
  decodeParcels [0xC6FC#16, 0x1234#16, 0x5678#16, 0x0000#16, 0x4000#16] =
    .ok (.movG32 0xF#4 0xC#4 0x12345678#32 0x00004000#32, []) ∧
  decodeParcels [0x80F3#16, 0x0001#16, 0x0000#16] = .ok (.jmpF32 0xF#4 0x00010000#32, []) ∧
  decodeParcels [0x2C09#16] = .ok (.testc, []) ∧ decodeParcels [0x2C08#16] = .ok (.testv, []) ∧
  decodeParcels [0x2C0A#16] = .ok (.clre, []) ∧
  encode .nop = [0x2C02#16] ∧ encode .testc = [0x2C09#16] ∧ encode .testv = [0x2C08#16] ∧ encode .clre = [0x2C0A#16]

/-! The machine as a whole -/

/-- Right after reset the invariant holds (the values of the registers the spec leaves open at reset are the model's,
log 4, and so is the empty memory, log 5). -/
def Obligations.InvariantAtReset : Prop := Inv State.reset

/-- From any state with the invariant, a step that answers a next state answers one with the invariant: memory in its
canonical form, PC even, the quad-aligned registers aligned, the reserved bits of PSW, CONFIG and STB 0 (that there are
at most two hazard records and that they list PSW flags only is about the model's own fields, logs 22, 59). -/
def Obligations.StepKeepsInvariant : Prop := ∀ s t : State, Inv s → step s = .next t → Inv t

/-- At a quiet boundary with physical addressing, a step runs the instruction that the bytes at PC decode to, then the
timers and the trace follow (speculative reads leave nothing there); an event of the instruction
gives way to the report of a bus error of a store that the instruction itself made (R376, log 11), and a stop stops the
step (logs 18, 39, 42: that a fetch notes the text page in `textMaps` is the model's own). -/
def Obligations.StepRunsDecodedInstruction : Prop :=
  ∀ (s : State) (i : Instr) (rest : List Parcel), QuietBoundary s → s.vpEff = false → s.busMap = [] →
    decodeParcels (textAt s.pc 6 s) = .ok (i, rest) →
    i.wellFormed = true ∧ ∃ u : State, u = s.setTextMaps u.textMaps ∧
      (∀ t, exec i u = .next t → t.ended ≠ .event ∨ t.writeFaults = 0 →
        step s = .next (afterStep ⟨parse i, false⟩ s t)) ∧
      (∀ t, exec i u = .next t → t.ended = .event → t.writeFaults ≠ 0 →
        step s = reportWrite s (u.setWriteFaults t.writeFaults)) ∧
      (∀ e, exec i u = .fault e → step s = .fault e) ∧ (∀ e, exec i u = .refused e → step s = .refused e)

/-- HRESET at a boundary resets the machine, whatever it was doing (70_reset_and_hazards.md R420; the values of the
registers the rule leaves open are free, log 8; what the hidden bits become is the spec's own choice D2, log 44; that
the other masters' writes of the boundary land before the reset is log 13's, and that the prefetch unit may have set R
bits of the tables before it is log 19's). -/
def Obligations.ResetPinResets : Prop :=
  ∀ (s : State) (p : Pins) (rest : List Pins), s.pins = p :: rest → p.hreset = true →
    ∃ t, step s = .next t ∧ t.pc = 0#32 ∧ t.psw = 0#32 ∧ t.config = 0#32 ∧ t.configEff = 0#32 ∧ t.shad = 0#32 ∧
      t.vpEff = false ∧ t.textTlb = [] ∧ t.dataTlb = [] ∧ t.textNpsr = none ∧ t.dataNpsr = none ∧
      t.pfbStale = [] ∧ t.icStale = [] ∧ t.textMaps = [] ∧ t.pfbQuads = [] ∧ t.t1Pending = false ∧
      t.t2Pending = false ∧ t.nmiArmed = true ∧ t.tracePending = false ∧ t.pins = rest ∧
      (mayPrefetch s = false → t.mem = (otherMasters p.writes s).mem)

/-! Two-operand instructions -/

/-- ADD, SUB, MUL, DIV, REM, UDIV, UREM, AND, OR, XOR, SHL, SHR, USHR (one-, three- and five-parcel forms, and behind a
CPU prefix): the result of the operation on the two operands goes to the destination, and its flags to PSW, after the
result but for DIV and REM, whose rules write V first (R189, R191), so that a result stored in PSW stays. -/
def Obligations.BinaryResult : Prop :=
  ∀ (i : Instr) (op : BinOp) (px : Bool) (f : Form) (s : State),
    parse i = some (px, .dyadic (.binary op false) f) → calm s = true →
    operandReady px (modeSize px f.src.mode) f.src s = true → operandReady px (modeSize px f.dst.mode) f.dst s = true →
    operandWritable px f.dst s = true → oneRegister px f = true →
    (op.traps = true → operandValue px f.src s ≠ 0#32) →
    ∃ (v : Word) (r : Recent), (op.calc (operandValue px f.src s) (operandValue px f.dst s)).value = some v ∧
      exec i s = .next (completed (nextPc px f.parcels s) r
        ((storeOperand px f.dst v s s).setPsw
          (pswAfter op.flagsFirst px f.dst (op.calc (operandValue px f.src s) (operandValue px f.dst s))
            (storeOperand px f.dst v s s).psw)))

/-- ADD3, SUB3, MUL3, DIV3, REM3, AND3, OR3, XOR3, SHL3, SHR3, USHR3 (every form): the result goes to the accumulator,
the word at CSP + 4; both operands are only read. -/
def Obligations.BinaryToAccumulator : Prop :=
  ∀ (i : Instr) (op : BinOp) (px : Bool) (f : Form) (s : State),
    parse i = some (px, .dyadic (.binary op true) f) → calm s = true →
    operandReady px (modeSize px f.src.mode) f.src s = true → operandReady px (modeSize px f.dst.mode) f.dst s = true →
    oneRegister px f = true → aligned (csp s + 4#32) 4 = true → firm (csp s + 4#32) s = true →
    (op.traps = true → operandValue px f.src s ≠ 0#32) →
    ∃ (v : Word) (r : Recent), (op.calc (operandValue px f.src s) (operandValue px f.dst s)).value = some v ∧
      exec i s = .next (completed (nextPc px f.parcels s) r
        ((store 4 (csp s + 4#32) v s).setPsw
          ((op.calc (operandValue px f.src s) (operandValue px f.dst s)).psw s.psw)))

/-- What the operations compute, against exact arithmetic: ADD, SUB and their carry, borrow and overflow; MUL's low
word, with the C and V of log 47 (the spec's own D8); UDIV and UREM; DIV and REM, which fit together whichever way the
quotient is rounded (log 7); the shifts by the low five bits of the source: SHL multiplies, SHR divides the signed value
rounding down, USHR the unsigned one; AND, OR and XOR bit by bit (that neither these nor the shifts write a flag is log
46's, D7); and what ADDI, ANDI and ORI store. -/
def Obligations.OperationsAreExact : Prop :=
  ∀ a b : Word,
    (∃ v, BinOp.and.calc a b = ⟨some v, 0#32, 0#32⟩ ∧ ∀ k, v.getLsbD k = (a.getLsbD k && b.getLsbD k)) ∧
    (∃ v, BinOp.or.calc a b = ⟨some v, 0#32, 0#32⟩ ∧ ∀ k, v.getLsbD k = (a.getLsbD k || b.getLsbD k)) ∧
    (∃ v, BinOp.xor.calc a b = ⟨some v, 0#32, 0#32⟩ ∧ ∀ k, v.getLsbD k = (a.getLsbD k != b.getLsbD k)) ∧
    (LockOp.addi.result a b).toNat = (b.toNat + a.toNat) % 4294967296 ∧
    (∀ k, (LockOp.andi.result a b).getLsbD k = (a.getLsbD k && b.getLsbD k)) ∧
    (∀ k, (LockOp.ori.result a b).getLsbD k = (a.getLsbD k || b.getLsbD k)) ∧
    (∃ v c o, BinOp.add.calc a b = ⟨some v, maskCV, flagsCV c o⟩ ∧
      v.toNat + (if c then 4294967296 else 0) = b.toNat + a.toNat ∧ (o = true ↔ v.toInt ≠ b.toInt + a.toInt)) ∧
    (∃ v c o, BinOp.sub.calc a b = ⟨some v, maskCV, flagsCV c o⟩ ∧
      v.toNat + a.toNat = b.toNat + (if c then 4294967296 else 0) ∧ (o = true ↔ v.toInt ≠ b.toInt - a.toInt)) ∧
    (∃ v c o, BinOp.mul.calc a b = ⟨some v, maskCV, flagsCV c o⟩ ∧
      v.toNat = b.toNat * a.toNat % 4294967296 ∧ (c = true ↔ v.toNat ≠ b.toNat * a.toNat) ∧
      (o = true ↔ v.toInt ≠ b.toInt * a.toInt)) ∧
    (a ≠ 0#32 → ∃ q r, BinOp.udiv.calc a b = ⟨some q, flagBit flagC true, 0#32⟩ ∧
      BinOp.urem.calc a b = ⟨some r, flagBit flagC true, 0#32⟩ ∧
      b.toNat = q.toNat * a.toNat + r.toNat ∧ r.toNat < a.toNat) ∧
    (a ≠ 0#32 → ∃ q r o, BinOp.div.calc a b = ⟨some q, flagBit flagV true, flagBit flagV o⟩ ∧
      BinOp.rem.calc a b = ⟨some r, flagBit flagV true, 0#32⟩ ∧
      (o = true ↔ b = 0x80000000#32 ∧ a = 0xFFFFFFFF#32) ∧
      (o = false → b.toInt = q.toInt * a.toInt + r.toInt ∧ r.toInt.natAbs < a.toInt.natAbs) ∧
      (o = true → q = 0x80000000#32 ∧ r = 0#32)) ∧
    (∃ v, BinOp.shl.calc a b = ⟨some v, 0#32, 0#32⟩ ∧ v.toNat = b.toNat * 2 ^ (a.toNat % 32) % 4294967296) ∧
    (∃ v, BinOp.shr.calc a b = ⟨some v, 0#32, 0#32⟩ ∧ v.toInt = b.toInt / 2 ^ (a.toNat % 32)) ∧
    (∃ v, BinOp.ushr.calc a b = ⟨some v, 0#32, 0#32⟩ ∧ v.toNat = b.toNat / 2 ^ (a.toNat % 32))

/-- ADDI, ANDI, ORI (every form): the result goes to the destination, then the destination's old value to the
accumulator, reached in the state after that store; no flag is written but by a destination that is PSW (that ANDI and
ORI write none, and ADDI neither F nor E, is the spec's own choice D7, log 46). -/
def Obligations.InterlockedResult : Prop :=
  ∀ (i : Instr) (op : LockOp) (px : Bool) (f : Form) (s u : State),
    parse i = some (px, .dyadic (.lock op) f) → calm s = true →
    operandReady px (modeSize px f.src.mode) f.src s = true → operandReady px (modeSize px f.dst.mode) f.dst s = true →
    operandWritable px f.dst s = true → oneRegister px f = true →
    u = storeOperand px f.dst (op.result (operandValue px f.src s) (operandValue px f.dst s)) s s →
    calm u = true → aligned (csp u + 4#32) 4 = true → firm (csp u + 4#32) u = true →
    ∃ r, exec i s = .next (completed (nextPc px f.parcels s) r (store 4 (csp u + 4#32) (operandValue px f.dst s) u))

/-- CMPEQ, CMPGT, CMPHI (every form): F alone takes the comparison of the first operand with the second, equal, signed
greater, unsigned greater; nothing is stored. -/
def Obligations.CompareResult : Prop :=
  ∀ (i : Instr) (op : CmpOp) (px : Bool) (f : Form) (s : State),
    parse i = some (px, .dyadic (.compare op) f) → calm s = true →
    operandReady px (modeSize px f.src.mode) f.src s = true → operandReady px (modeSize px f.dst.mode) f.dst s = true →
    oneRegister px f = true →
    ∃ (b : Bool) (r : Recent),
      (b = true ↔ match op with
        | .eq => operandValue px f.src s = operandValue px f.dst s
        | .gt => (operandValue px f.src s).toInt > (operandValue px f.dst s).toInt
        | .hi => (operandValue px f.src s).toNat > (operandValue px f.dst s).toNat) ∧
      exec i s = .next (completed (nextPc px f.parcels s) r (s.setPsw (putBit s.psw flagF b)))

/-- TADD, TSUB (every form): with a nonzero tag F is set and nothing else happens; else C and V are those of ADD or SUB,
F is V, and the result is stored when V is 0, after the flags (R316, R317), so that a result stored in PSW stays. -/
def Obligations.TaggedResult : Prop :=
  ∀ (i : Instr) (op : TagOp) (px : Bool) (f : Form) (s : State) (a b : Word),
    parse i = some (px, .dyadic (.tagged op) f) → calm s = true →
    operandReady px (modeSize px f.src.mode) f.src s = true → operandReady px (modeSize px f.dst.mode) f.dst s = true →
    operandWritable px f.dst s = true → oneRegister px f = true →
    a = operandValue px f.src s → b = operandValue px f.dst s →
    ∃ (r : Recent) (v : Word) (c o : Bool),
      (match op with
        | .tadd => BinOp.add.calc a b = ⟨some v, maskCV, flagsCV c o⟩
        | .tsub => BinOp.sub.calc a b = ⟨some v, maskCV, flagsCV c o⟩) ∧
      exec i s = .next (completed (nextPc px f.parcels s) r
        (if a.extractLsb' 0 2 ≠ 0#2 ∨ b.extractLsb' 0 2 ≠ 0#2 then s.setPsw (putBit s.psw flagF true)
         else if o then s.setPsw (putBit (putBit (putBit s.psw flagF true) flagC c) flagV true)
         else
          let u := storeOperand px f.dst v s s
          if operandRegister px f.dst = some .psw then u
          else u.setPsw (putBit (putBit (putBit u.psw flagF false) flagC c) flagV false)))

/-- MOV (every form): the source's value is stored at the destination, which is not read; a register may be moved to a
register. -/
def Obligations.MovResult : Prop :=
  ∀ (i : Instr) (px : Bool) (f : Form) (s : State),
    parse i = some (px, .dyadic .mov f) → calm s = true →
    operandReady px (modeSize px f.src.mode) f.src s = true → operandReady px (modeSize px f.dst.mode) f.dst s = true →
    operandWritable px f.dst s = true →
    ∃ r, exec i s = .next (completed (nextPc px f.parcels s) r (storeOperand px f.dst (operandValue px f.src s) s s))

/-- MOVA (every form): the address of the source is stored at the destination; of the source only an indirect mode's
pointer is read. -/
def Obligations.MovaResult : Prop :=
  ∀ (i : Instr) (px : Bool) (f : Form) (s : State),
    parse i = some (px, .dyadic .mova f) → calm s = true →
    wordMode f.src.mode = true → isImmediate f.src = false → isImmediate f.dst = false → isRegister px f.dst = false →
    (f.src.mode = 0xE#4 → aligned (stackAddress f.src s) 4 = true ∧ firm (stackAddress f.src s) s = true) →
    operandReady px (modeSize px f.dst.mode) f.dst s = true →
    ∃ r, exec i s = .next (completed (nextPc px f.parcels s) r
      (store (modeSize px f.dst.mode) (operandAddress px f.dst s) (operandAddress px f.src s) s))

/-- DQM (both forms): two or four consecutive words, by the destination mode, from the source block (an immediate is
replicated) to the destination block; every word is read before any is written (the spec's own choice D11, log 58). -/
def Obligations.DqmResult : Prop :=
  ∀ (i : Instr) (px : Bool) (f : Form) (s : State) (n : Nat),
    parse i = some (px, .dyadic .dqm f) → calm s = true → Inv s →
    dqmWords px f.dst.mode = some n → wordMode f.src.mode = true →
    operandReady px (4 * n) f.src s = true → operandReady px (4 * n) f.dst s = true →
    ∃ r, exec i s = .next (completed (nextPc px f.parcels s) r
      (storeWords (operandAddress px f.dst s)
        (if isImmediate f.src then List.replicate n f.src.field.value else loadWords n (operandAddress px f.src s) s) s))

/-- The unimplemented opcodes of every kind, FLUSHD and FLUSHDCE (vector VB + 12), and the trapped niladics (VB + 8):
the address of the instruction is stored at the CSP and PC is loaded from the vector; nothing else changes (that two
register operands behind a CPU prefix take the sequence too is the model's choice, log 61, and so is that the hazard
record stays, log 56). -/
def Obligations.UnimplementedSequenceResult : Prop :=
  ∀ (i : Instr) (px : Bool) (v : View) (off : Word) (s u : State), parse i = some (px, v) →
    ((∃ f, v = .dyadic .unimplemented f ∧ off = 12#32 ∧
        (px = true → legalMode true f.src.mode = true ∧ legalMode true f.dst.mode = true)) ∨
      (∃ m o n, v = .monadic .unimplemented m o n ∧ off = 12#32 ∧ wordMode m = true) ∨
      (v = .niladic .unimplemented ∧ off = 12#32) ∨ (v = .niladic .trapped ∧ off = 8#32)) →
    calm s = true → aligned (csp s) 4 = true → firm (csp s) s = true → aligned (s.vb + off) 4 = true →
    hits (s.vb + off) s = false →
    u = store 4 (csp s) s.pc s →
    exec i s = .next ((u.setPc (textAlign (load 4 (s.vb + off) u))).setEnded .emulated)

/-! Control flow and the stack -/

/-- JMP (both forms): PC becomes the target; in a direct mode from any state. JMPFN, JMPFY (`sense` false) and JMPTN,
JMPTY (`sense` true), both forms, from any state: PC becomes the target when F is `sense`, else it goes on. Nothing
else changes. -/
def Obligations.JumpResult : Prop :=
  ∀ (i : Instr) (px : Bool) (m : BitVec 4) (o : Word) (n : Nat) (s : State),
    (parse i = some (px, .monadic .jmp m o n) → flowReady m o s = true →
      ∃ r, exec i s = .next (completed (flowAddress m o s) r s)) ∧
    ∀ sense : Bool, parse i = some (px, .monadic (.jmpIf sense) m o n) → (m = 0xE#4 ∨ m = 0xF#4) →
      ∃ r, exec i s =
        .next (completed (if s.psw.getLsbD flagF = sense then flowAddress m o s else nextPc px n s) r s)

/-- CALL (both forms): the return address is stored at the CSP, then PC becomes the target; the CSP does not move. -/
def Obligations.CallResult : Prop :=
  ∀ (i : Instr) (px : Bool) (m : BitVec 4) (o : Word) (n : Nat) (s u : State),
    parse i = some (px, .monadic .call m o n) → calm s = true → wordMode m = true → flowSound m o s = true →
    aligned (csp s) 4 = true → firm (csp s) s = true → u = store 4 (csp s) (nextPc px n s) s →
    ∃ r, exec i s = .next (completed (flowAddress m o u) r u)

/-- RETURN (both forms): PC becomes the word at CSP + offset, the CSP rises by the offset with its low four bits
dropped, SHAD with it, and MSP with SP where SP passes it (with the stack cache disabled and SP other than MSP, U3, that
is the model's choice, log 27). -/
def Obligations.ReturnResult : Prop :=
  ∀ (i : Instr) (px : Bool) (m : BitVec 4) (o c : Word) (n : Nat) (s : State),
    parse i = some (px, .monadic .ret m o n) → calm s = true → Inv s → m = 0xD#4 → o.getLsbD 31 = false →
    aligned (csp s + o) 4 = true → firm (csp s + o) s = true → c = csp s + quadAlign o →
    ∃ r, exec i s = .next (completed (load 4 (csp s + o) s) r
      (if pswCSP s.psw then ((s.setSp c).setMsp (if s.msp < c then c else s.msp)).setShad c
       else (s.setIsp c).setShad c))

/-- POPN (both forms): as RETURN without the jump, and without an access to memory (with the stack cache disabled and SP
other than MSP, U3, or enabled with a window that is not usable, U2, that is the model's choice, logs 27 and 26). -/
def Obligations.PopnResult : Prop :=
  ∀ (i : Instr) (px : Bool) (m : BitVec 4) (o c : Word) (n : Nat) (s : State),
    parse i = some (px, .monadic .popn m o n) → Inv s → m = 0xD#4 → o.getLsbD 31 = false →
    c = csp s + quadAlign o →
    ∃ r, exec i s = .next (completed (nextPc px n s) r
      (if pswCSP s.psw then ((s.setSp c).setMsp (if s.msp < c then c else s.msp)).setShad c
       else (s.setIsp c).setShad c))

/-- LDRAA: the target of a control-flow operand is stored in the accumulator. -/
def Obligations.LdraaResult : Prop :=
  ∀ (i : Instr) (px : Bool) (m : BitVec 4) (o : Word) (n : Nat) (s : State),
    parse i = some (px, .monadic .ldraa m o n) → calm s = true → wordMode m = true → flowSound m o s = true →
    aligned (csp s + 4#32) 4 = true → firm (csp s + 4#32) s = true →
    ∃ r, exec i s = .next (completed (nextPc px n s) r (store 4 (csp s + 4#32) (flowAddress m o s) s))

/-- CATCH (both forms): nothing when the CSP is the ISP; else quads are loaded from memory into the stack cache and MSP
rises until it reaches the operand's address or SP + 256; what the cache held stays (with the stack cache disabled and
SP other than MSP, U3, that is the model's choice, log 27). -/
def Obligations.CatchFillsCache : Prop :=
  ∀ (i : Instr) (px : Bool) (m : BitVec 4) (o : Word) (n : Nat) (s : State),
    parse i = some (px, .monadic .catching m o n) → calm s = true → Inv s → wordMode m = true →
    (pswCSP s.psw = false → ∃ r, exec i s = .next (completed (nextPc px n s) r s)) ∧
    (pswCSP s.psw = true → frameReady m o s = true → windowOk s = true → s.sp.toNat + 256 < 4294967296 →
      ∃ t, exec i s = .next t ∧ t.pc = textAlign (nextPc px n s) ∧ t.psw = s.psw ∧ SameEvents s t ∧
        SameRegisters s (t.setMsp s.msp) ∧ t.shad = s.shad ∧ t.mem = s.mem ∧
        s.msp ≤ t.msp ∧ windowOk t = true ∧ (frameAddress m o s ≤ t.msp ∨ t.msp = s.sp + 256#32) ∧
        (t.msp = s.msp ∨ t.msp - 16#32 < frameAddress m o s) ∧
        (∀ a : Word, aligned a 4 = true → s.sp ≤ a → a < s.msp → readCell a t = readCell a s) ∧
        (∀ a : Word, aligned a 4 = true → s.msp ≤ a → a < t.msp → readCell a t = Memory.readBE s.mem a 4))

/-- ENTER when the CSP is the ISP (both forms): ISP and SHAD become the operand's address with its low four bits
dropped, and E is set (that every ENTER sets E is the spec's own choice D5, log 46). -/
def Obligations.EnterOnInterruptStack : Prop :=
  ∀ (i : Instr) (px : Bool) (m : BitVec 4) (o c : Word) (n : Nat) (s : State),
    parse i = some (px, .monadic .enter m o n) → calm s = true → pswCSP s.psw = false → wordMode m = true →
    enterLegal m o n = true → frameReady m o s = true → c = quadAlign (frameAddress m o s) →
    ∃ r, exec i s = .next (completed (nextPc px n s) r
      (((s.setIsp c).setShad c).setPsw (putBit s.psw flagE true)))

/-- ENTER when the CSP is SP, to an address that is no stack offset: the whole stack cache goes to memory, and SP, MSP
and SHAD become the operand's address; the bytes outside the old window stay. E is set (the spec's own choice D5, log
46). -/
def Obligations.EnterFlushesWholeCache : Prop :=
  ∀ (i : Instr) (px : Bool) (m : BitVec 4) (o c : Word) (n : Nat) (s : State),
    parse i = some (px, .monadic .enter m o n) → calm s = true → Inv s → pswCSP s.psw = true → wordMode m = true →
    m ≠ 0xD#4 → frameReady m o s = true → windowOk s = true → (configSC s.configEff = true ∨ s.sp = s.msp) →
    c = quadAlign (frameAddress m o s) →
    ∃ t, exec i s = .next t ∧ t.pc = textAlign (nextPc px n s) ∧ t.psw = putBit s.psw flagE true ∧ SameEvents s t ∧
      t.sp = c ∧ t.msp = c ∧ t.shad = c ∧ SameRegisters s ((t.setSp s.sp).setMsp s.msp) ∧
      (∀ a : Word, aligned a 4 = true → s.sp ≤ a → a < s.msp → Memory.readBE t.mem a 4 = readCell a s) ∧
      (∀ k : Nat, k < s.sp.toNat ∨ s.msp.toNat ≤ k → Memory.read t.mem k = Memory.read s.mem k)

/-- ENTER by a stack offset when the CSP is SP (both forms): SP and SHAD come down to the new frame; MSP stays where the
frame and the cache fit in 256 bytes, else it comes down to SP + 256, and exactly what lay above it in the cache goes to
memory; what stays in the window keeps its value. E is set (the spec's own choice D5, log 46). -/
def Obligations.EnterByStackOffset : Prop :=
  ∀ (i : Instr) (px : Bool) (m : BitVec 4) (o c : Word) (n : Nat) (s : State),
    parse i = some (px, .monadic .enter m o n) → calm s = true → Inv s → pswCSP s.psw = true → m = 0xD#4 →
    enterLegal m o n = true → 0 ≤ (s.sp.toNat : Int) + signed o → windowOk s = true →
    (configSC s.configEff = true ∨ s.sp = s.msp) → c = quadAlign (s.sp + o) →
    ∃ t, exec i s = .next t ∧ t.pc = textAlign (nextPc px n s) ∧ t.psw = putBit s.psw flagE true ∧ SameEvents s t ∧
      t.sp = c ∧ t.shad = c ∧ SameRegisters s ((t.setSp s.sp).setMsp s.msp) ∧
      t.msp = (if 256 < s.msp.toNat - c.toNat then c + 256#32 else s.msp) ∧ windowOk t = true ∧
      (∀ a : Word, aligned a 4 = true → s.sp ≤ a → t.msp ≤ a → a < s.msp → Memory.readBE t.mem a 4 = readCell a s) ∧
      (∀ a : Word, aligned a 4 = true → s.sp ≤ a → a < t.msp → readCell a t = readCell a s) ∧
      (∀ k : Nat, (k < s.sp.toNat ∨ k < t.msp.toNat ∨ s.msp.toNat ≤ k) → Memory.read t.mem k = Memory.read s.mem k)

/-- KCALL (both forms): the operand, the next PC and PSW go to the interrupt stack below ISP, ISP and SHAD come down by
16, PC is loaded from VB + 0, and PSW keeps its upper half. -/
def Obligations.KcallResult : Prop :=
  ∀ (i : Instr) (px : Bool) (m : BitVec 4) (o : Word) (n : Nat) (s u : State),
    parse i = some (px, .monadic .kcall m o n) → calm s = true → wordMode m = true →
    operandReady false 4 (monadicOperand m o) s = true → frameClear s.isp s.vb s = true →
    aligned s.isp 4 = true → aligned s.vb 4 = true →
    u = store 4 (s.isp - 4#32) s.psw (store 4 (s.isp - 8#32) (nextPc px n s)
      (store 4 (s.isp - 12#32) (operandValue false (monadicOperand m o) s) s)) →
    ∃ r, exec i s = .next (completed (load 4 s.vb u) r
      (((u.setIsp (s.isp - 16#32)).setShad (s.isp - 16#32)).setPsw (eventPsw s.psw)))

/-- KRET at kernel level: PC and PSW are loaded from ISP + 8 and ISP + 12, ISP rises by 16, SHAD becomes the restored
CSP, and the restored addressing mode and configuration are in effect (log 56; `leaveRecent` is the model's hazard
record, in which KRET is one instruction and R441's hazard is over). -/
def Obligations.KretResult : Prop :=
  ∀ (s u : State), plain s = true → usable s = true → pswX s.psw = false → aligned s.isp 4 = true →
    aligned (s.isp + 8#32) 4 = true → aligned (s.isp + 12#32) 4 = true →
    hits (s.isp + 8#32) s = false → hits (s.isp + 12#32) s = false →
    u = (s.setIsp (s.isp + 16#32)).setPsw (load 4 (s.isp + 12#32) s &&& pswMask) →
    exec .kret s = .next ((((((u.setPc (textAlign (load 4 (s.isp + 8#32) s))).setShad (csp u)).setConfigEff
      s.config).setVpEff (pswVP u.psw)).setRecent (leaveRecent s)).setEnded .completed)

/-- CRET at kernel level: SP, MSP, PC and PSW are loaded from the frame, ISP rises by 16, SHAD becomes the restored CSP,
and when that is SP the stack cache holds memory's words from SP up to MSP; memory stays. That CONFIG and the addressing
mode take effect here is log 56's; with the stack cache disabled and SP other than MSP (U3) the fill is log 27's. -/
def Obligations.CretResult : Prop :=
  ∀ (s : State) (sp msp p : Word), plain s = true → usable s = true → pswX s.psw = false → aligned s.isp 4 = true →
    (∀ k : Fin 4, aligned (s.isp + BitVec.ofNat 32 (4 * k.val)) 4 = true ∧
      hits (s.isp + BitVec.ofNat 32 (4 * k.val)) s = false) →
    sp = quadAlign (load 4 s.isp s) → msp = quadAlign (load 4 (s.isp + 4#32) s) →
    p = load 4 (s.isp + 12#32) s &&& pswMask → pswVP p = false →
    sp.toNat ≤ msp.toNat → msp.toNat ≤ sp.toNat + 256 → hits (s.isp + 8#32) ((s.setSp sp).setMsp msp) = false →
    ∃ t, exec .cret s = .next t ∧ t.ended = .completed ∧ t.sp = sp ∧ t.msp = msp ∧ t.psw = p ∧
      t.pc = textAlign (load 4 (s.isp + 8#32) s) ∧ t.isp = s.isp + 16#32 ∧ t.shad = csp t ∧ t.mem = s.mem ∧
      t.config = s.config ∧ t.configEff = s.config ∧ t.vpEff = false ∧ t.vb = s.vb ∧ t.stb = s.stb ∧
      t.fault = s.fault ∧ t.timer1 = s.timer1 ∧ t.timer2 = s.timer2 ∧ SameEvents s t ∧
      (pswCSP p = true → ∀ a : Word, aligned a 4 = true → sp ≤ a → a < msp →
        readCell a t = Memory.readBE s.mem a 4)

/-! The other instructions -/

/-- NOP, from any state: PC goes on by 2 and nothing else changes but the model's hazard record and completion mark; it
is a completed instruction for the timers, and for trace (R327). -/
def Obligations.NopOnlyAdvancesPc : Prop :=
  ∀ s : State, ∃ r, exec .nop s = .next (completed (s.pc + 2#32) r s) ∧ r.flags = 0#32 ∧
    (Done.mk (parse .nop) false).completed (completed (s.pc + 2#32) r s) = true ∧
    traced ⟨parse .nop, false⟩ s (completed (s.pc + 2#32) r s) = pswTI s.psw ∧
    (s.pc = 0x1000#32 → (completed (s.pc + 2#32) r s).pc = 0x1002#32)

/-- TESTC, from any state: F takes C, C becomes 0, the other PSW bits stay, PC goes on by 2; with the rule's example. -/
def Obligations.TestCarryMovesCarryToFlag : Prop :=
  ∀ s : State, ∃ r q, exec .testc s = .next (completed (s.pc + 2#32) r (s.setPsw q)) ∧
    q.getLsbD flagF = s.psw.getLsbD flagC ∧ q.getLsbD flagC = false ∧
    (∀ k, k ≠ flagF → k ≠ flagC → q.getLsbD k = s.psw.getLsbD k) ∧
    (s.psw = 0x00010020#32 → q = 0x00010010#32) ∧ (s.psw = 0x00010010#32 → q = 0x00010000#32)

/-- TESTV, from any state: F takes V, V becomes 0, the other PSW bits stay, PC goes on by 2; with the rule's examples.
-/
def Obligations.TestOverflowMovesOverflowToFlag : Prop :=
  ∀ s : State, ∃ r q, exec .testv s = .next (completed (s.pc + 2#32) r (s.setPsw q)) ∧
    q.getLsbD flagF = s.psw.getLsbD flagV ∧ q.getLsbD flagV = false ∧
    (∀ k, k ≠ flagF → k ≠ flagV → q.getLsbD k = s.psw.getLsbD k) ∧
    (s.psw = 0x00010040#32 → q = 0x00010010#32) ∧ (s.psw = 0x00010030#32 → q = 0x00010020#32)

/-- CLRE, from any state: E becomes 0, the other PSW bits stay, PC goes on by 2; with the rule's example. -/
def Obligations.ClreClearsEnterGuard : Prop :=
  ∀ s : State, ∃ r q, exec .clre s = .next (completed (s.pc + 2#32) r (s.setPsw q)) ∧
    q.getLsbD flagE = false ∧ (∀ k, k ≠ flagE → q.getLsbD k = s.psw.getLsbD k) ∧
    (s.psw = 0x00010800#32 → q = 0x00010000#32)

/-- FLUSHI and FLUSHP, from any state: the instruction cache, or the prefetch buffer, supplies nothing earlier any
more, and the other cache is not touched. FLUSHPBE, with physical addressing: the prefetch buffer supplies nothing
earlier from the addressed quad word. Nothing else changes (the representation of what they hold is the model's, log
18; which address the operand names in each mode is the spec's own choice D32, log 43). -/
def Obligations.TextFlushResults : Prop :=
  ∀ s : State,
    (∃ r, exec .flushi s = .next (completed (s.pc + 2#32) r ((s.setIcStale []).setTextMaps []))) ∧
    (∃ r, exec .flushp s = .next (completed (s.pc + 2#32) r ((s.setPfbStale []).setPfbQuads []))) ∧
    ∀ (i : Instr) (px : Bool) (m : BitVec 4) (o a : Word) (n : Nat),
      parse i = some (px, .monadic .flushpbe m o n) → wordMode m = true → s.vpEff = false →
      (m = 0xE#4 → calm s = true ∧ aligned (csp s + o) 4 = true ∧ firm (csp s + o) s = true) →
      a = (if m = 0xD#4 then csp s + o else if m = 0xE#4 then load 4 (csp s + o) s else o) →
      ∃ r xs qs, exec i s = .next (completed (nextPc px n s) r ((s.setPfbStale xs).setPfbQuads qs)) ∧
        (∀ e, e ∈ xs ↔ e ∈ s.pfbStale ∧ quadAlign e.addr ≠ quadAlign a) ∧
        ∀ q, q ∈ qs ↔ q ∈ s.pfbQuads ∧ q ≠ quadAlign a

/-- FLUSHPTE: the entries of the addressed page leave both TLBs, both nonpaged segment registers become invalid, nothing
else changes (which address the operand names in each mode is the spec's own choice D32, log 43). -/
def Obligations.FlushPageEntryResult : Prop :=
  ∀ (i : Instr) (px : Bool) (m : BitVec 4) (o a : Word) (n : Nat) (s : State),
    parse i = some (px, .monadic .flushpte m o n) → wordMode m = true →
    (m = 0xE#4 → calm s = true ∧ aligned (csp s + o) 4 = true ∧ firm (csp s + o) s = true) →
    a = (if m = 0xD#4 then csp s + o else if m = 0xE#4 then load 4 (csp s + o) s else o) →
    ∃ r t, exec i s = .next (completed (nextPc px n s) r t) ∧
      (∀ e, e ∈ t.textTlb ↔ e ∈ s.textTlb ∧ e.page ≠ pageOf a) ∧
      (∀ e, e ∈ t.dataTlb ↔ e ∈ s.dataTlb ∧ e.page ≠ pageOf a) ∧ t.textNpsr = none ∧ t.dataNpsr = none ∧
      (((t.setTextTlb s.textTlb).setDataTlb s.dataTlb).setTextNpsr s.textNpsr).setDataNpsr s.dataNpsr = s

/-! Frames -/

/-- Every two-operand instruction without a register destination, from any state: where it ends with no event, it leaves
every control register but PC and the flags of its kind, and every hidden bit, as it was (that MOV, the logical
instructions and the shifts leave every flag is the spec's own choice D7, log 46). -/
def Obligations.DyadicRegisterFrame : Prop :=
  ∀ (i : Instr) (op : DyOp) (px : Bool) (f : Form) (s t : State),
    parse i = some (px, .dyadic op f) → (op.writes = true → isRegister px f.dst = false) →
    exec i s = .next t → t.ended ≠ .event →
    SameRegisters s t ∧ SameEvents s t ∧ t.shad = s.shad ∧ t.configEff = s.configEff ∧ t.vpEff = s.vpEff ∧
      t.psw &&& ~~~op.flags = s.psw &&& ~~~op.flags

/-- The two-operand instructions that store in their destination and nowhere else (ADD, SUB, MUL, DIV, REM, UDIV, UREM,
AND, OR, XOR, SHL, SHR, USHR, TADD, TSUB, MOV), with physical addressing, a stack cache window that is usable and no
bus input to come (other masters' writes): only the destination's bytes, or its stack cache cell, can change; with a
register destination nothing in memory does. -/
def Obligations.DestinationMemoryFrame : Prop :=
  ∀ (i : Instr) (op : DyOp) (px : Bool) (f : Form) (s s1 t : State) (a b : Place),
    parse i = some (px, .dyadic op f) → s.vpEff = false → usable s = true → s.turns = [] →
    (op = .mov ∨ (∃ o, op = .binary o false) ∨ (∃ o, op = .tagged o)) →
    openForm px (if op = .mov then .writes else .updates) f s = .ok (a, b) s1 →
    exec i s = .next t → t.ended ≠ .event → b.Frame s t

/-- The instructions that store in the accumulator alone (ADD3, SUB3, MUL3, DIV3, REM3, AND3, OR3, XOR3, SHL3, SHR3,
USHR3 and LDRAA) and those that store nothing (CMPEQ, CMPGT, CMPHI, JMP, JMPFN, JMPFY, JMPTN, JMPTY, RETURN, POPN,
CATCH, FLUSHPTE, FLUSHPBE, KRET, CRET, NOP, FLUSHI, FLUSHP, TESTV, TESTC, CLRE), with physical addressing, a stack
cache window that is usable and no bus input to come: what else memory holds stays. -/
def Obligations.OtherMemoryFrame : Prop :=
  ∀ (i : Instr) (px : Bool) (v : View) (s t : State),
    parse i = some (px, v) → s.vpEff = false → usable s = true → s.turns = [] → exec i s = .next t →
    t.ended = .completed →
    ((∃ f o, v = .dyadic (.binary o true) f) ∨ (∃ m o n, v = .monadic .ldraa m o n) →
      SameMemoryBut (csp s + 4#32) 4 s t ∧ SameCellsBut (csp s + 4#32) s t) ∧
    ((∃ f o, v = .dyadic (.compare o) f) ∨ (∃ m o n, v = .monadic .jmp m o n) ∨
      (∃ b m o n, v = .monadic (.jmpIf b) m o n) ∨ (∃ m o n, v = .monadic .ret m o n) ∨
      (∃ m o n, v = .monadic .popn m o n) ∨ (∃ m o n, v = .monadic .flushpte m o n) ∨
      (∃ m o n, v = .monadic .flushpbe m o n) ∨
      (∃ op, v = .niladic op ∧ op ≠ .cret ∧ op ≠ .unimplemented ∧ op ≠ .trapped) →
      t.mem = s.mem ∧ t.cache = s.cache) ∧
    ((∃ m o n, v = .monadic .catching m o n) ∨ (v = .niladic .cret ∧ pswVP t.psw = false) → t.mem = s.mem)

/-- ADDI, ANDI, ORI, with physical addressing, a stack cache window that is usable and no bus input to come: only the
destination's bytes and the accumulator's can change (a store in SP or MSP may leave a window in which nothing in the
stack cache is known, U2, log 26). -/
def Obligations.InterlockedMemoryFrame : Prop :=
  ∀ (i : Instr) (op : LockOp) (px : Bool) (f : Form) (s s1 t : State) (a b : Place),
    parse i = some (px, .dyadic (.lock op) f) → s.vpEff = false → usable s = true → s.turns = [] →
    openForm px .updates f s = .ok (a, b) s1 → exec i s = .next t → t.ended ≠ .event →
    match b with
    | .memory _ va n _ =>
      (∀ k, ¬ inBytes (laneAddr (little s) n va) n k → ¬ inBytes (csp s + 4#32) 4 k →
        Memory.read t.mem k = Memory.read s.mem k) ∧
      (∀ j : Fin 64, j ≠ cellIndex va → j ≠ cellIndex (csp s + 4#32) → t.cache[j] = s.cache[j])
    | _ => SameMemoryBut (csp t + 4#32) 4 s t ∧ (usable t = true → SameCellsBut (csp t + 4#32) s t)

/-- MOVA, DQM and CALL, with physical addressing, a stack cache window that is usable and no bus input to come: MOVA
changes only its destination's bytes, DQM only its destination block (two or four words), CALL only the word at the CSP.
-/
def Obligations.BlockMemoryFrame : Prop :=
  ∀ (i : Instr) (px : Bool) (v : View) (s t : State),
    parse i = some (px, v) → s.vpEff = false → usable s = true → s.turns = [] → exec i s = .next t → t.ended ≠ .event →
    (∀ f ea s1 b s2, v = .dyadic .mova f → effectiveAddress f.src s = .ok ea s1 →
      locate px (modeSize px f.dst.mode) f.dst s1 = .ok b s2 → b.Frame s t) ∧
    (∀ f n a s1 acc va sz sg s2, v = .dyadic .dqm f → dqmWords px f.dst.mode = some n →
      locate px (4 * n) f.src s = .ok a s1 → locate px (4 * n) f.dst s1 = .ok (.memory acc va sz sg) s2 →
      SameMemoryBut va (4 * n) s t ∧
      ∀ j : Fin 64, (∀ k, k < n → j ≠ cellIndex (va + BitVec.ofNat 32 (4 * k))) → t.cache[j] = s.cache[j]) ∧
    (∀ m o n, v = .monadic .call m o n → SameMemoryBut (csp s) 4 s t ∧ SameCellsBut (csp s) s t)

/-- Every instruction at user level that ends with no event leaves CONFIG, VB, STB, FAULT, the timers and the
configuration in effect as they were, MSP and SP too unless it is a stack instruction, ISP and SHAD unless it is KCALL,
ENTER, RETURN or POPN, and of PSW everything but the flags F, C, V, E unless it is KCALL: only the privileged
instructions, or KCALL into the kernel's handler, reach them. -/
def Obligations.UserLevelKeepsSystemState : Prop :=
  ∀ (i : Instr) (s t : State), pswX s.psw = true → exec i s = .next t → t.ended ≠ .event →
    t.config = s.config ∧ t.configEff = s.configEff ∧ t.vb = s.vb ∧ t.stb = s.stb ∧ t.fault = s.fault ∧
    t.timer1 = s.timer1 ∧ t.timer2 = s.timer2 ∧ t.vpEff = s.vpEff ∧ SameEvents s t ∧
    ((∃ px m o n, parse i = some (px, .monadic .kcall m o n)) ∨ t.psw &&& ~~~flagMask = s.psw &&& ~~~flagMask) ∧
    ((∃ px op m o n, parse i = some (px, .monadic op m o n) ∧ (op = .enter ∨ op = .ret ∨ op = .popn ∨ op = .catching)) ∨
      (t.sp = s.sp ∧ t.msp = s.msp)) ∧
    ((∃ px op m o n, parse i = some (px, .monadic op m o n) ∧ (op = .kcall ∨ op = .enter ∨ op = .ret ∨ op = .popn)) ∨
      (t.isp = s.isp ∧ t.shad = s.shad))

/-! Exceptions -/

/-- Illegal modes raise IllegalInstruction before anything else about the operands, from any state: a two-operand
instruction with a mode its table does not have, DQM with one it may not have (unimplemented ones behind a CPU prefix
only), MOVA with a source that is sub-word or an immediate or with a register operand, an immediate destination (log
29), a monadic with a nonword mode, a conditional jump with an indirect one, RETURN, POPN and ENTER with an offset of
the wrong sign (that the sub-word modes are illegal after CPU, that a conditional jump may not be indirect, and that a
monadic may have no nonword mode, is the spec's own choice D25, log 55). -/
def Obligations.IllegalModesTrap : Prop :=
  ∀ (i : Instr) (px : Bool) (v : View) (s : State), parse i = some (px, v) →
    ((∃ op f, v = .dyadic op f ∧ (op = .unimplemented → px = true) ∧
        (legalMode px f.src.mode = false ∨ legalMode px f.dst.mode = false)) ∨
      (∃ f, v = .dyadic .dqm f ∧ (dqmWords px f.dst.mode = none ∨ wordMode f.src.mode = false)) ∨
      (∃ f, v = .dyadic .mova f ∧ (wordMode f.src.mode = false ∨ isImmediate f.src = true ∨
        isRegister px f.src = true ∨ isRegister px f.dst = true)) ∨
      (∃ op f, v = .dyadic op f ∧ op.writes = true ∧ isImmediate f.dst = true) ∨
      (∃ op m o n, v = .monadic op m o n ∧ wordMode m = false) ∨
      (∃ b m o n, v = .monadic (.jmpIf b) m o n ∧ (m = 0xC#4 ∨ m = 0xD#4)) ∨
      (∃ op m o n, v = .monadic op m o n ∧ (op = .ret ∨ op = .popn) ∧ (m ≠ 0xD#4 ∨ o.getLsbD 31 = true)) ∨
      (∃ o n, v = .monadic .enter 0xD#4 o n ∧ o.getLsbD 31 = false)) →
    exec i s = takeTrap .illegalInstruction s

/-- Operands that cannot be reached, from any state: a register operand whose number names no register raises
UnimplementedRegister, once the modes are legal; a misaligned operand raises AlignmentFault before any access (an
absolute or stack offset operand off its size, a pointer off four), also behind a CPU prefix, of MOVA (its destination
and a pointer), of DQM (off its block's size), of JMP, CALL and LDRAA (an indirection word), of KCALL, of RETURN (the
return word), of ENTER and CATCH (the word they read; ENTER may leave the translations of R447 otherwise, log 25) and of
FLUSHPTE and FLUSHPBE (a pointer). In the ordinary situation an indirect operand whose pointer is aligned and whose
target is not raises it once the pointer is read: of the two-operand instructions, of MOVA's destination, of DQM and of
KCALL. -/
def Obligations.UnreachableOperandTraps : Prop :=
  (∀ (i : Instr) (op : DyOp) (f : Form) (s : State), parse i = some (true, .dyadic op f) →
    op ≠ .mova → op ≠ .dqm → op ≠ .unimplemented →
    legalMode true f.src.mode = true → legalMode true f.dst.mode = true →
    (op.writes = true → isImmediate f.dst = false) →
    ((f.src.mode = 0x7#4 ∧ Reg.ofField f.src.field.value = none) ∨
      (f.dst.mode = 0x7#4 ∧ Reg.ofField f.dst.field.value = none)) →
    exec i s = takeTrap .unimplementedRegister s) ∧
  (∀ (i : Instr) (op : DyOp) (px : Bool) (f : Form) (s : State), parse i = some (px, .dyadic op f) →
    op ≠ .mova → op ≠ .dqm → op ≠ .unimplemented → legalMode px f.src.mode = true → legalMode px f.dst.mode = true →
    missingRegister px f.src = false → missingRegister px f.dst = false →
    (op.writes = true → isImmediate f.dst = false) →
    (staticAligned px (modeSize px f.src.mode) f.src s = false ∨
      staticAligned px (modeSize px f.dst.mode) f.dst s = false) →
    exec i s = takeTrap .alignmentFault s) ∧
  (∀ (i : Instr) (px : Bool) (f : Form) (s : State), parse i = some (px, .dyadic .mova f) → movaLegal px f = true →
    ((f.src.mode = 0xE#4 ∧ aligned (stackAddress f.src s) 4 = false) ∨
      staticAligned px (modeSize px f.dst.mode) f.dst s = false) →
    exec i s = takeTrap .alignmentFault s) ∧
  (∀ (i : Instr) (px : Bool) (f : Form) (n : Nat) (s : State), parse i = some (px, .dyadic .dqm f) →
    dqmWords px f.dst.mode = some n → wordMode f.src.mode = true →
    (staticAligned px (4 * n) f.src s = false ∨ staticAligned px (4 * n) f.dst s = false) →
    exec i s = takeTrap .alignmentFault s) ∧
  (∀ (i : Instr) (px : Bool) (op : MonOp) (m : BitVec 4) (o : Word) (n : Nat) (s : State),
    parse i = some (px, .monadic op m o n) → (op = .jmp ∨ op = .call ∨ op = .ldraa) → wordMode m = true →
    flowAligned m o s = false → exec i s = takeTrap .alignmentFault s) ∧
  (∀ (i : Instr) (px : Bool) (m : BitVec 4) (o : Word) (n : Nat) (s : State),
    parse i = some (px, .monadic .kcall m o n) → wordMode m = true →
    (staticAligned false 4 (monadicOperand m o) s = false ∨
      (m = 0xE#4 ∧ calm s = true ∧ aligned (csp s + o) 4 = true ∧ firm (csp s + o) s = true ∧
        aligned (load 4 (csp s + o) s) 4 = false)) →
    exec i s = takeTrap .alignmentFault s) ∧
  (∀ (i : Instr) (px : Bool) (o : Word) (n : Nat) (s : State), parse i = some (px, .monadic .ret 0xD#4 o n) →
    o.getLsbD 31 = false → aligned (csp s + o) 4 = false → exec i s = takeTrap .alignmentFault s) ∧
  (∀ (i : Instr) (px : Bool) (op : MonOp) (m : BitVec 4) (o : Word) (n : Nat) (s : State),
    parse i = some (px, .monadic op m o n) →
    ((m = 0xC#4 ∧ aligned o 4 = false) ∨ (m = 0xE#4 ∧ aligned (csp s + o) 4 = false)) →
    (op = .catching → pswCSP s.psw = true → s.sp ≤ s.msp → exec i s = takeTrap .alignmentFault s) ∧
    (op = .enter → (pswCSP s.psw = true → s.sp ≤ s.msp) →
      ∃ u, u = ((s.setDataTlb u.dataTlb).setDataNpsr u.dataNpsr).setFree u.free ∧
        (s.recent.all Recent.harmless = true → u = s) ∧ exec i s = takeTrap .alignmentFault u)) ∧
  (∀ (i : Instr) (px : Bool) (op : MonOp) (o : Word) (n : Nat) (s : State),
    parse i = some (px, .monadic op 0xE#4 o n) → (op = .flushpte ∨ op = .flushpbe) → aligned (csp s + o) 4 = false →
    exec i s = takeTrap .alignmentFault s) ∧
  (∀ (i : Instr) (op : DyOp) (px : Bool) (f : Form) (s : State), parse i = some (px, .dyadic op f) → calm s = true →
    op ≠ .mova → op ≠ .dqm → op ≠ .unimplemented → legalMode px f.src.mode = true → legalMode px f.dst.mode = true →
    missingRegister px f.src = false → missingRegister px f.dst = false →
    (op.writes = true → isImmediate f.dst = false) →
    staticAligned px (modeSize px f.src.mode) f.src s = true →
    staticAligned px (modeSize px f.dst.mode) f.dst s = true →
    (IndirectOff px (modeSize px f.src.mode) f.src s ∨
      (operandReady px (modeSize px f.src.mode) f.src s = true ∧ IndirectOff px (modeSize px f.dst.mode) f.dst s)) →
    exec i s = takeTrap .alignmentFault s) ∧
  (∀ (i : Instr) (px : Bool) (f : Form) (s : State), parse i = some (px, .dyadic .mova f) → calm s = true →
    movaLegal px f = true →
    (f.src.mode = 0xE#4 → aligned (stackAddress f.src s) 4 = true ∧ firm (stackAddress f.src s) s = true) →
    staticAligned px (modeSize px f.dst.mode) f.dst s = true → IndirectOff px (modeSize px f.dst.mode) f.dst s →
    exec i s = takeTrap .alignmentFault s) ∧
  (∀ (i : Instr) (px : Bool) (f : Form) (n : Nat) (s : State), parse i = some (px, .dyadic .dqm f) → calm s = true →
    dqmWords px f.dst.mode = some n → wordMode f.src.mode = true →
    staticAligned px (4 * n) f.src s = true → staticAligned px (4 * n) f.dst s = true →
    (IndirectOff px (4 * n) f.src s ∨ (operandReady px (4 * n) f.src s = true ∧ IndirectOff px (4 * n) f.dst s)) →
    exec i s = takeTrap .alignmentFault s)

/-- DIV, REM, UDIV, UREM, DIV3 and REM3 by zero raise ZeroDivide and store nothing: the state the exception is taken
from is the one before the instruction. -/
def Obligations.ZeroDivisorTraps : Prop :=
  ∀ (i : Instr) (op : BinOp) (acc px : Bool) (f : Form) (s : State),
    parse i = some (px, .dyadic (.binary op acc) f) → op.traps = true → calm s = true →
    operandReady px (modeSize px f.src.mode) f.src s = true → operandReady px (modeSize px f.dst.mode) f.dst s = true →
    (acc = false → operandWritable px f.dst s = true) → oneRegister px f = true →
    (acc = true → aligned (csp s + 4#32) 4 = true ∧ firm (csp s + 4#32) s = true) → operandValue px f.src s = 0#32 →
    exec i s = takeTrap .zeroDivide s

/-- At user level KRET and CRET, and a write of a register by MOV, ADD and every other two-operand instruction that
stores in its destination, raise PrivilegeViolation and change nothing before it. -/
def Obligations.UserRegisterWriteTraps : Prop :=
  ∀ s : State, pswX s.psw = true →
    exec .kret s = takeTrap .privilegeViolation s ∧ exec .cret s = takeTrap .privilegeViolation s ∧
    ∀ (i : Instr) (op : DyOp) (f : Form), parse i = some (true, .dyadic op f) → op.writes = true → op ≠ .mova →
      op ≠ .dqm → calm s = true → operandReady true (modeSize true f.src.mode) f.src s = true → f.dst.mode = 0x7#4 →
      (Reg.ofField f.dst.field.value).isSome = true → (op = .mov ∨ oneRegister true f = true) →
      exec i s = takeTrap .privilegeViolation s

/-- Where an instruction stops by name, from any state: CPU before a one-parcel instruction (U6, log 30); two
registers read (U12, log 33); the three-parcel ENTER by a stack offset of at most 256 in magnitude (U8, log 32);
ENTER and CATCH on SP with MSP below it (R266, R263, U2, log 26); and, where the prefetch unit makes no access before
it, an access the bus never answers, by the platform's map or by this access's own input (U14, log 10). -/
def Obligations.NamedStops : Prop :=
  (∀ (p : Parcel) (s : State), exec (.cpuShort p) s = .refused .cpuBeforeOneParcel) ∧
  (∀ (i : Instr) (op : DyOp) (f : Form) (s : State), parse i = some (true, .dyadic op f) →
    op ≠ .mov → op ≠ .mova → op ≠ .dqm → op ≠ .unimplemented → f.src.mode = 0x7#4 → f.dst.mode = 0x7#4 →
    (Reg.ofField f.src.field.value).isSome = true → (Reg.ofField f.dst.field.value).isSome = true →
    exec i s = .refused .twoRegistersRead) ∧
  (∀ (i : Instr) (px : Bool) (o : Word) (s : State), parse i = some (px, .monadic .enter 0xD#4 o 3) →
    o.getLsbD 31 = true → -256 ≤ signed o → exec i s = .refused .enterOffsetTooSmall) ∧
  (∀ (i : Instr) (px : Bool) (op : MonOp) (m : BitVec 4) (o : Word) (n : Nat) (s : State),
    parse i = some (px, .monadic op m o n) →
    ((op = .enter ∧ wordMode m = true ∧ enterLegal m o n = true) ∨ (op = .catching ∧ wordMode m = true)) →
    pswCSP s.psw = true → s.msp < s.sp → exec i s = .refused .stackCacheUnpredictable) ∧
  (∀ (i : Instr) (px : Bool) (o : Word) (n : Nat) (s : State), parse i = some (px, .monadic .jmp 0xC#4 o n) →
    s.vpEff = false → configSC s.configEff = false → mayPrefetch s = false → aligned o 4 = true →
    (busTurn false o s).1 = some .silent → exec i s = .fault .busNeverAnswers)

/-- Bus errors (R376, R386), by the platform's map or by the access's own input, where the prefetch unit makes no access
before it (log 19): one on a data read of any size raises
IoBusFault from the state before; one on an ordinary store leaves memory alone and waits (log 11), while one on a
precise store, that of an interlocked instruction, of a sequence or of the unimplemented and trapped sequences, raises
IoBusFault at once (the model's choice and the spec's own D24, log 48); one that waits is reported at a boundary that
must report it before a trace, and before an interrupt, the exception of a fetch, a serialising instruction, and an
instruction's own exception (log 11). HRESET ends an access, and resets the machine from there (log 12). -/
def Obligations.BusErrorOutcomes : Prop :=
  (∀ (i : Instr) (px : Bool) (o : Word) (n : Nat) (s u : State), parse i = some (px, .monadic .jmp 0xC#4 o n) →
    s.vpEff = false → configSC s.configEff = false → mayPrefetch s = false → aligned o 4 = true →
    busTurn false o s = (some .busError, u) →
    exec i s = takeTrap .ioBusFault u) ∧
  (∀ (acc : Access) (n : Nat) (va : Word) (s u : State), s.vpEff = false → configSC s.configEff = false →
    mayPrefetch s = false → aligned va n = true → busTurn false va s = (some .busError, u) → memRead acc va n s = .trap .ioBusFault u) ∧
  (∀ (acc : Access) (n : Nat) (va v : Word) (s u : State), s.vpEff = false → configSC s.configEff = false →
    mayPrefetch s = false → aligned va n = true →
    (busTurn false va s = (none, u) → memRead acc va n s = .trap .externalReset u) ∧
    (busTurn acc.locked va s = (none, u) → memWrite acc va n v s = .trap .externalReset u) ∧
    takeTrap .externalReset u = .next (resetSequence true u)) ∧
  (∀ (acc : Access) (n : Nat) (va v : Word) (s u : State), s.vpEff = false → configSC s.configEff = false →
    mayPrefetch s = false → aligned va n = true → busTurn acc.locked va s = (some .busError, u) →
    memWrite acc va n v s =
      if acc.precise then .trap .ioBusFault u else .ok () (u.setWriteFaults (u.writeFaults + 1))) ∧
  (∀ (off : Word) (s u : State), s.vpEff = false → configSC s.configEff = false → mayPrefetch s = false →
    aligned (csp s) 4 = true → busTurn false (csp s) s = (some .busError, u) → unimplementedSequence off s = .trap .ioBusFault u) ∧
  (∀ (il : BitVec 3) (s : State), pendingInterrupt il s = none → s.writeFaults ≠ 0 → s.tracePending = true →
    runBoundary il s = runEvent s (takeTrap .ioBusFault (s.setWriteFaults (s.writeFaults - 1)))) ∧
  (∀ (il : BitVec 3) (off : Word) (s u : State), pendingInterrupt il s = some (off, u) → s.writeFaults ≠ 0 →
    runBoundary il s = reportWrite s s) ∧
  (∀ (t : Trap) (s0 s u : State), fetchDecode s = .trap t u → t ≠ .externalReset → u.writeFaults ≠ 0 →
    runNext s0 s = reportWrite s0 u) ∧
  (∀ (i : Instr) (s0 s u : State), fetchDecode s = .ok i u → serialises i = true → u.writeFaults ≠ 0 →
    runNext s0 s = reportWrite s0 u) ∧
  (∀ (d : Done) (s0 s t : State), t.ended = .event → hresetEnded s t = false → s.writeFaults ≠ 0 →
    t.writeFaults ≤ s.writeFaults → conclude d s0 s (.next t) = reportWrite s0 s)

/-- Taking an exception with physical addressing: FAULT takes the address for the data faults, the CSP register takes
SHAD, identifier, PC and PSW go below ISP, ISP and SHAD come down by 16, PC is loaded from VB + 4 and PSW keeps its
upper half. `u` is the state after the SHAD step. That a trace that is due is dropped is the spec's own choice D26 (log
42), and that the hazards in flight end is the model's (log 56). -/
def Obligations.ExceptionSequenceSaves : Prop :=
  ∀ (e : Trap) (s u w : State), e ≠ .internalReset → e ≠ .externalReset → plain s = true →
    u = restoreCsp (recordFault e s) → frameClear u.isp (s.vb + 4#32) u = true →
    aligned u.isp 4 = true → aligned (s.vb + 4#32) 4 = true →
    w = store 4 (u.isp - 4#32) s.psw (store 4 (u.isp - 8#32) s.pc (store 4 (u.isp - 12#32) e.identifier u)) →
    (pswCSP s.psw = true → u.sp = s.shad ∧ u.isp = s.isp) ∧ (pswCSP s.psw = false → u.isp = s.shad ∧ u.sp = s.sp) ∧
    (∀ va, e = .dataReadFault va ∨ e = .dataWriteFault va → u.fault = va) ∧
    takeTrap e s = .next ((((((((w.setIsp (u.isp - 16#32)).setShad (u.isp - 16#32)).setPc
      (textAlign (load 4 (s.vb + 4#32) w))).setPsw (eventPsw s.psw)).setTracePending false).setRecent []).setEnded
      .event).setFoldable false)

/-- The interrupt sequence with physical addressing: the SHAD step, PC and PSW below ISP, PC from the vector, PSW's
upper half; FAULT stays. That a trace that is due is dropped is the spec's own choice D26 (log 42), and that the hazards
in flight end is the model's (log 56). -/
def Obligations.InterruptSequenceSaves : Prop :=
  ∀ (vector : Word) (s u w : State), plain s = true → u = restoreCsp s → frameClear u.isp vector u = true →
    aligned u.isp 4 = true → aligned vector 4 = true →
    w = store 4 (u.isp - 4#32) s.psw (store 4 (u.isp - 8#32) s.pc u) →
    settleSequence (interruptSequence vector s) = .next ((((((((w.setIsp (u.isp - 16#32)).setShad
      (u.isp - 16#32)).setPc (textAlign (load 4 vector w))).setPsw (eventPsw s.psw)).setTracePending false).setRecent
      []).setEnded .event).setFoldable false)

/-- Which interrupt a boundary takes (R351 to R356): none until the latch is armed (what arms it is log 14's); NMI
first, whatever the priority level; then the lowest level below IPL, where Timer1 and Timer2 are level 1 and come after
an external request at level 1 (the spec's own choice D21, log 15); a request at IPL or above is not taken, nor is a
timer whose enable is 0. -/
def Obligations.InterruptAcceptance : Prop :=
  ∀ (il : BitVec 3) (s : State),
    (s.nmiArmed = false → pendingInterrupt il s = none) ∧
    (s.nmiArmed = true → il = 0#3 → pendingInterrupt il s = some (16#32, s.setNmiArmed false)) ∧
    (s.nmiArmed = true → 1 ≤ il.toNat → il.toNat ≤ 6 → il.toNat < (pswIPL s.psw).toNat →
      (il = 1#3 ∨ ((s.t1Pending = false ∨ configT1IE s.configEff = false) ∧
        (s.t2Pending = false ∨ configT2IE s.configEff = false))) →
      ∃ off, pendingInterrupt il s = some (off, s) ∧ off.toNat = 16 + 4 * il.toNat) ∧
    (s.nmiArmed = true → 2 ≤ il.toNat → 1 < (pswIPL s.psw).toNat → s.t1Pending = true → configT1IE s.configEff = true →
      pendingInterrupt il s = some (44#32, s.setT1Pending false)) ∧
    (s.nmiArmed = true → 2 ≤ il.toNat → 1 < (pswIPL s.psw).toNat →
      (s.t1Pending = false ∨ configT1IE s.configEff = false) → s.t2Pending = true →
      configT2IE s.configEff = true → pendingInterrupt il s = some (48#32, s.setT2Pending false)) ∧
    (s.nmiArmed = true → 1 ≤ il.toNat → (il = 7#3 ∨ (pswIPL s.psw).toNat ≤ il.toNat) →
      ((pswIPL s.psw).toNat ≤ 1 ∨ ((s.t1Pending = false ∨ configT1IE s.configEff = false) ∧
        (s.t2Pending = false ∨ configT2IE s.configEff = false))) →
      pendingInterrupt il s = none)

/-- A memory fault in an access of an event sequence, KCALL, KRET or CRET to the interrupt stack or the vector table
resets the machine (R379): a bus error with physical addressing, or an invalid segment that no cached translation covers
with virtual addressing (`Unreachable`), with no text to read ahead (log 19), at the first frame store of an exception,
of an interrupt and of KCALL, at the first frame read of KRET and of CRET, and at the vector read of an exception, of an
interrupt and of KCALL. PC, PSW and CONFIG become 0 and SHAD what PSW was (`Restarted`; the registers' values are the
spec's own D2, log 44). -/
def Obligations.FailedSequenceResets : Prop :=
  ∀ s : State, configSC s.configEff = false → s.turns = [] → mayPrefetch s = false →
    (∀ (e : Trap) (u : State), e ≠ .internalReset → e ≠ .externalReset → u = restoreCsp (recordFault e s) →
      Unreachable (u.isp - 12#32) s → ∃ t, takeTrap e s = .next t ∧ Restarted s t ∧ t.mem = s.mem) ∧
    (∀ (vector : Word) (u : State), u = restoreCsp s → Unreachable (u.isp - 8#32) s →
      ∃ t, settleSequence (interruptSequence vector s) = .next t ∧ Restarted s t ∧ t.mem = s.mem) ∧
    (∀ (i : Instr) (px : Bool) (o : Word) (n : Nat), parse i = some (px, .monadic .kcall 0xF#4 o n) →
      Unreachable (s.isp - 12#32) s → ∃ t, exec i s = .next t ∧ Restarted s t ∧ t.mem = s.mem) ∧
    (pswX s.psw = false → Unreachable (s.isp + 8#32) s →
      ∃ t, exec .kret s = .next t ∧ Restarted s t ∧ t.mem = s.mem) ∧
    (pswX s.psw = false → Unreachable s.isp s → ∃ t, exec .cret s = .next t ∧ Restarted s t ∧ t.mem = s.mem) ∧
    (∀ (e : Trap) (u : State), e ≠ .internalReset → e ≠ .externalReset → u = restoreCsp (recordFault e s) →
      s.vpEff = false → aligned u.isp 4 = true → (∀ k : Fin 4, k ≠ 0 → busAnswer s.busMap (u.isp - BitVec.ofNat 32 (4 * k.val)) = .ram) →
      Unreachable (s.vb + 4#32) s → ∃ t, takeTrap e s = .next t ∧ Restarted s t) ∧
    (∀ (vector : Word) (u : State), u = restoreCsp s → s.vpEff = false → aligned u.isp 4 = true →
      busAnswer s.busMap (u.isp - 8#32) = .ram → busAnswer s.busMap (u.isp - 4#32) = .ram → Unreachable vector s →
      ∃ t, settleSequence (interruptSequence vector s) = .next t ∧ Restarted s t) ∧
    (∀ (i : Instr) (px : Bool) (o : Word) (n : Nat), parse i = some (px, .monadic .kcall 0xF#4 o n) →
      s.vpEff = false → aligned s.isp 4 = true →
      (∀ k : Fin 4, k ≠ 0 → busAnswer s.busMap (s.isp - BitVec.ofNat 32 (4 * k.val)) = .ram) → Unreachable s.vb s →
      ∃ t, exec i s = .next t ∧ Restarted s t)

/-! Memory, translation, timers, trace, hazards -/

/-- A store is read back (physical addressing or the stack cache, either byte order, 1, 2 or 4 bytes), and with a usable
stack cache window it leaves every load of other bytes alone. -/
def Obligations.LoadAfterStore : Prop :=
  ∀ (n m : Nat) (va wa v : Word) (s : State), (n = 1 ∨ n = 2 ∨ n = 4) → (m = 1 ∨ m = 2 ∨ m = 4) →
    aligned va n = true → aligned wa m = true →
    load n va (store n va v s) = v &&& bytesMask n ∧
    (Inv s → usable s = true → (va.toNat + n ≤ wa.toNat ∨ wa.toNat + m ≤ va.toNat) →
      load m wa (store n va v s) = load m wa s)

/-- A table walk for an uncached page (R90): with both entries valid and the access allowed, the address comes from the
page table entry, which is cached and written back with R set, and M for a write; otherwise the access faults with its
kind's exception and nothing is cached or written (that the protection is checked before R and M are set, and that no
invalid or refused entry is cached, is the spec's own choice D16, log 60). A nonpaged segment's entry goes to the
nonpaged segment register, and the address is taken from it, or refused by its protection or bound (the bound's fault is
the spec's own choice D15, log 60). -/
def Obligations.PageWalk : Prop :=
  ∀ (k : Kind) (user : Bool) (va ste pte : Word) (s : State), s.vpEff = true → ramBus s = true →
    findNpsr (segmentOf va) (npsrOf k s) = none → findTlb (pageOf va) (tlbOf k s) = none → (tlbOf k s).length < 32 →
    ste = Memory.readBE s.mem (steAddr s.stb va) 4 → pte = Memory.readBE s.mem (pteAddr ste va) 4 →
    (entryValid ste = false → Machine.translate k user va s = .trap (k.fault va) s) ∧
    (entryValid ste = true → entryNonpaged ste = false → (entryValid pte = false ∨ permitted k user pte = false) →
      Machine.translate k user va s = .trap (k.fault va) s) ∧
    (entryValid ste = true → entryNonpaged ste = true →
      ∃ t, npsrOf k t = some ⟨segmentOf va, ste⟩ ∧ tlbOf k t = tlbOf k s ∧ t.mem = s.mem ∧
        Machine.translate k user va s =
          if permitted k user ste ∧ (va.toNat / 4096) % 1024 ≤ (ste.toNat / 4096) % 1024 then
            .ok (segmentAddress ste va) t
          else .trap (k.fault va) t) ∧
    (entryValid ste = true → entryNonpaged ste = false → entryValid pte = true → permitted k user pte = true →
      ∃ t e, Machine.translate k user va s = .ok (pageAddress pte va) t ∧ findTlb (pageOf va) (tlbOf k t) = some e ∧
        Memory.readBE t.mem (pteAddr ste va) 4 = e.pte ∧
        (∀ j, e.pte.getLsbD j = (pte.getLsbD j || j == 3 || (k == .write && j == 4))) ∧
        SameMemoryBut (pteAddr ste va) 4 s t)

/-- A cached page answers without a walk, with its protection checked (R90, R94); a nonpaged segment answers within its
bound (R88; what happens beyond the bound is the spec's own choice D15, log 60). Where the tables no longer say what is
cached, or a bus input would be seen, the entry may also have been dropped, and a walk takes its place (log 16). -/
def Obligations.CachedTranslation : Prop :=
  ∀ (k : Kind) (user : Bool) (va : Word) (s : State), s.vpEff = true →
    (∀ e, findNpsr (segmentOf va) (npsrOf k s) = none → findTlb (pageOf va) (tlbOf k s) = some e →
      (k = .write → entryModified e.pte = true) →
      ∃ u, u = s.setFree u.free ∧ (tableMapping va s = some (.page e.pte) → s.turns = [] → u = s) ∧
        ((Machine.translate k user va s =
            if permitted k user e.pte then .ok (pageAddress e.pte va) u else .trap (k.fault va) u) ∨
          (u ≠ s ∧ Machine.translate k user va s = (walk false k user va u).bind fun m t =>
            if m.allows k user va then .ok (m.address va) t else .trap (k.fault va) t))) ∧
    (∀ e, findNpsr (segmentOf va) (npsrOf k s) = some e → findTlb (pageOf va) (tlbOf k s) = none →
      ∃ u, u = s.setFree u.free ∧ (tableMapping va s = some (.segment e.ste) → s.turns = [] → u = s) ∧
        ((Machine.translate k user va s =
            if permitted k user e.ste ∧ (va.toNat / 4096) % 1024 ≤ (e.ste.toNat / 4096) % 1024 then
              .ok (segmentAddress e.ste va) u
            else .trap (k.fault va) u) ∨
          (u ≠ s ∧ Machine.translate k user va s = (walk false k user va u).bind fun m t =>
            if m.allows k user va then .ok (m.address va) t else .trap (k.fault va) t)))

/-- Writing a register as a destination (R26 to R43): what it holds after, and every register that goes with it (that
the reserved bits of PSW, CONFIG, STB and the aligned registers are dropped is the spec's own choice D18, log 53; that
FAULT, TIMER1, TIMER2 and the others accept a write is the inference R42 marks as its own, D19; that a write of CONFIG
leaves the configuration in effect, and one of PSW the addressing mode in effect, until a boundary is the model's
choice, logs 20 and 21). -/
def Obligations.RegisterWriteEffects : Prop :=
  ∀ (v : Word) (s : State), s.recent.all Recent.harmless = true →
    writeRegister .id v s = s ∧
    writeRegister .fault v s = s.setFault v ∧ writeRegister .timer1 v s = s.setTimer1 v ∧
    writeRegister .timer2 v s = s.setTimer2 v ∧ writeRegister .vb v s = s.setVb (quadAlign v) ∧
    writeRegister .msp v s = s.setMsp (quadAlign v) ∧ writeRegister .config v s = s.setConfig (v &&& 0xFFFF0000#32) ∧
    writeRegister .psw v s = s.setPsw (v &&& 0x0001FFF0#32) ∧ writeRegister .shad v s = s.setShad (quadAlign v) ∧
    writeRegister .isp v s = (if pswCSP s.psw then s.setIsp (quadAlign v)
      else (s.setIsp (quadAlign v)).setShad (quadAlign v)) ∧
    writeRegister .sp v s = (if pswCSP s.psw then ((s.setSp (quadAlign v)).setMsp (quadAlign v)).setShad (quadAlign v)
      else (s.setSp (quadAlign v)).setMsp (quadAlign v)) ∧
    writeRegister .stb v s = ((((s.setStb (v &&& 0xFFFFF800#32)).setTextTlb []).setTextNpsr none).setDataTlb
      []).setDataNpsr none

/-- A register read right after instructions that wrote flags (R441, U13; the choice between the two values is free, log
22): each PSW bit is the present one or one from before them, and a bit none of them wrote is the present one. -/
def Obligations.PswReadHazard : Prop :=
  ∀ (s : State) (k : Nat),
    ((readRegister .psw s).1.getLsbD k = s.psw.getLsbD k ∨
      ∃ r ∈ s.recent, r.flags.getLsbD k = true ∧ (readRegister .psw s).1.getLsbD k = r.pswBefore.getLsbD k) ∧
    (readRegister .psw s).2.psw = s.psw

/-- Text that is not stale is memory's (R71, R109): with physical addressing a fetch yields the parcel in memory, and so
does the instruction cache, where nothing earlier is in the caches, and also where both are disabled, whatever they
hold; after a store into text with nothing earlier either yields the old parcel or the new one, and nothing else (U22,
log 18). -/
def Obligations.FetchSuppliesMemoryOrStale : Prop :=
  ∀ (va w : Word) (old new : Parcel) (s u : State), s.vpEff = false → ramBus s = true →
    (∀ m ∈ s.textMaps, m.frame = m.page) → u = physStore (wordAlign va) 4 w s →
    old = Memory.parcel s.mem (textAlign va) → new = Memory.parcel u.mem (textAlign va) →
    ((s.pfbStale = [] ∧ s.icStale = []) ∨ (configPBE s.configEff = false ∧ configICE s.configEff = false) →
      (∃ l t, fetchParcel va none s = .ok (old, l) t ∧ t.mem = s.mem ∧ t.pc = s.pc) ∧
      ∀ p ∈ icValues (textAlign va) s, p = old) ∧
    (s.pfbStale = [] ∧ s.icStale = [] →
      (∃ p l t, fetchParcel va none u = .ok (p, l) t ∧ (p = old ∨ p = new)) ∧
      ∀ p ∈ icValues (textAlign va) u, p = old ∨ p = new)

/-- Reads with no architectural cause, those after a mispredicted jump (R112) and those of the prefetch unit (R108),
leave every register, flag and request as it was, and a fault of theirs is no event; only HRESET in one of their bus
accesses is, and one never answered stops the machine (R411, U14). Those after a jump leave the text translations alone,
with physical addressing every translation, and everything where no bus access could show (which reads are made is the
model's free choice, logs 52 and 19). -/
def Obligations.SpeculativeReadsLeaveRegisters : Prop :=
  ∀ (d : Done) (hreset : Bool) (s : State),
    (match speculate d s with
     | .ok _ u => SameRegisters s u ∧ SameEvents s u ∧ u.pc = s.pc ∧ u.psw = s.psw ∧ u.shad = s.shad ∧
        u.cache = s.cache ∧ u.writeFaults = s.writeFaults ∧ u.ended = s.ended ∧ u.textTlb = s.textTlb ∧
        u.textNpsr = s.textNpsr ∧
        (s.vpEff = false → u.dataTlb = s.dataTlb ∧ u.dataNpsr = s.dataNpsr ∧ (s.turns = [] → u.mem = s.mem))
     | .trap e _ => e = .externalReset
     | .halt e => e = .busNeverAnswers
     | .refuse _ => False) ∧
    (s.vpEff = false → ramBus s = true → speculate d s = .ok () s) ∧
    (match prefetch hreset s with
     | .ok _ u => SameRegisters s u ∧ SameEvents s u ∧ u.pc = s.pc ∧ u.psw = s.psw ∧ u.shad = s.shad ∧
        u.cache = s.cache ∧ u.writeFaults = s.writeFaults ∧ u.ended = s.ended
     | .trap e _ => e = .externalReset
     | .halt e => e = .busNeverAnswers
     | .refuse _ => False)

/-- The timers when they count instructions (R395 to R397, R356): one for each completed instruction that did not write
the timer, none for an event or an emulated instruction; the request comes when the count passes 0xFFFFFFFF and the
timer's interrupt is enabled, and stays until it is taken (what counts as an instruction and how the request is kept is
the spec's own choice D33, log 39). An instruction that writes the timer counts before or after its write, freely (log
39); TADD and TSUB that store nothing do not write it. -/
def Obligations.TimersCountInstructions : Prop :=
  ∀ (d : Done) (s0 s : State), d.folded = false → configT1K s.configEff = false → configT2K s.configEff = false →
    (∀ (reg : Reg) (px : Bool) (op : TagOp) (f : Form), d.view = some (px, .dyadic (.tagged op) f) →
      s.psw.getLsbD flagF = true → d.wrote reg s = false) ∧
    (configT1EV s.configEff = true → d.wrote .timer1 s = false →
      (advanceTimer1 d s0 s).timer1 = s.timer1 + (if d.completed s then 1#32 else 0#32) ∧
      ((advanceTimer1 d s0 s).t1Pending = true ↔ s.t1Pending = true ∨
        (configT1IE s.configEff = true ∧ d.completed s = true ∧ s.timer1 = 0xFFFFFFFF#32))) ∧
    (configT2EV s.configEff = 1#5 → d.wrote .timer2 s = false →
      (advanceTimer2 d s0 s).timer2 = s.timer2 + (if d.completed s then 1#32 else 0#32) ∧
      ((advanceTimer2 d s0 s).t2Pending = true ↔ s.t2Pending = true ∨
        (configT2IE s.configEff = true ∧ d.completed s = true ∧ s.timer2 = 0xFFFFFFFF#32))) ∧
    (configT1EV s.configEff = true → d.wrote .timer1 s = true →
      ((advanceTimer1 d s0 s).timer1 = s.timer1 ∧ ((advanceTimer1 d s0 s).t1Pending = true ↔ s.t1Pending = true ∨
        (configT1IE s.configEff = true ∧ s0.timer1 = 0xFFFFFFFF#32))) ∨
      ((advanceTimer1 d s0 s).timer1 = s.timer1 + 1#32 ∧ ((advanceTimer1 d s0 s).t1Pending = true ↔ s.t1Pending = true ∨
        (configT1IE s.configEff = true ∧ s.timer1 = 0xFFFFFFFF#32)))) ∧
    (configT2EV s.configEff = 1#5 → d.wrote .timer2 s = true →
      ((advanceTimer2 d s0 s).timer2 = s.timer2 ∧ ((advanceTimer2 d s0 s).t2Pending = true ↔ s.t2Pending = true ∨
        (configT2IE s.configEff = true ∧ s0.timer2 = 0xFFFFFFFF#32))) ∨
      ((advanceTimer2 d s0 s).timer2 = s.timer2 + 1#32 ∧ ((advanceTimer2 d s0 s).t2Pending = true ↔ s.t2Pending = true ∨
        (configT2IE s.configEff = true ∧ s.timer2 = 0xFFFFFFFF#32))))

/-- Trace (R402 to R405): with TI set an instruction that ends with no event, and is not KCALL, KRET or CRET, leaves a
trace due; with TB alone only a completed jump, call or return does; and a trace due is taken at the next boundary that
has no interrupt and no bus error to report (that the PSW at the instruction's start decides, what ends a basic block,
and that an emulated instruction is traced by TI alone, is the spec's own choice D26, log 42). -/
def Obligations.TraceFollowsInstruction : Prop :=
  (∀ (px : Bool) (v : View) (s0 s : State), traced ⟨some (px, v), false⟩ s0 s = true →
    (afterStep ⟨some (px, v), false⟩ s0 s).tracePending = true) ∧
  (∀ (px : Bool) (v : View) (s0 s : State), traced ⟨some (px, v), false⟩ s0 s = true ↔
    s.ended ≠ .event ∧ untraceable v = false ∧
      (pswTI s0.psw = true ∨ (pswTB s0.psw = true ∧ s.ended = .completed ∧ endsBlock v = true))) ∧
  (∀ (il : BitVec 3) (s : State), pendingInterrupt il s = none → s.writeFaults = 0 → s.tracePending = true →
    runBoundary il s = runEvent s (takeTrap .trace s))

end
end

