-- ==== Sys2Proof/Laws/Bits.lean ====
section
/-! SUPPORT. Bits: masks, and the arithmetic of quad-aligned addresses. -/

namespace Sys2Proof.Machine

theorem and_mask_twice (a m : Word) : a &&& m &&& m = a &&& m := by
  rw [BitVec.and_assoc, BitVec.and_self]

@[simp] theorem quadAlign_quadAlign (w : Word) : quadAlign (quadAlign w) = quadAlign w := and_mask_twice _ _

@[simp] theorem textAlign_textAlign (w : Word) : textAlign (textAlign w) = textAlign w := and_mask_twice _ _

@[simp] theorem quadAlign_zero : quadAlign 0#32 = 0#32 := by decide

@[simp] theorem textAlign_zero : textAlign 0#32 = 0#32 := by decide

/-- A quad-aligned word is the word with its low four bits cut off by shifting. -/
theorem quadAlign_eq (w : Word) : quadAlign w = (w >>> 4) <<< 4 := by
  have key : ∀ j : Fin 32, (0xFFFFFFF0#32).getLsbD j.val = decide (4 ≤ j.val) := by decide
  ext i hi
  have hk : (0xFFFFFFF0#32)[i] = decide (4 ≤ i) := key ⟨i, hi⟩
  simp only [quadAlign, BitVec.getElem_and, BitVec.getElem_shiftLeft, BitVec.getElem_ushiftRight, hk]
  by_cases h : i < 4
  · simp [h]
  · have h2 : 4 + (i - 4) = i := by omega
    have h3 : 4 ≤ i := by omega
    simp [h, h2, h3, BitVec.getLsbD_eq_getElem hi]

theorem quadAlign_toNat (w : Word) : (quadAlign w).toNat = w.toNat / 16 * 16 := by
  rw [quadAlign_eq, BitVec.toNat_shiftLeft, BitVec.toNat_ushiftRight, Nat.shiftLeft_eq, Nat.shiftRight_eq_div_pow]
  have := w.isLt
  rw [Nat.mod_eq_of_lt (by omega)]

theorem quadAligned_iff (w : Word) : quadAlign w = w ↔ w.toNat % 16 = 0 := by
  constructor
  · intro h
    have := congrArg BitVec.toNat h
    rw [quadAlign_toNat] at this
    omega
  · intro h
    apply BitVec.eq_of_toNat_eq
    rw [quadAlign_toNat]
    omega

theorem pairAlign_eq (w : Word) : pairAlign w = (w >>> 3) <<< 3 := by
  have key : ∀ j : Fin 32, (0xFFFFFFF8#32).getLsbD j.val = decide (3 ≤ j.val) := by decide
  ext i hi
  have hk : (0xFFFFFFF8#32)[i] = decide (3 ≤ i) := key ⟨i, hi⟩
  simp only [pairAlign, BitVec.getElem_and, BitVec.getElem_shiftLeft, BitVec.getElem_ushiftRight, hk]
  by_cases h : i < 3
  · simp [h]
  · have h2 : 3 + (i - 3) = i := by omega
    have h3 : 3 ≤ i := by omega
    simp [h, h2, h3, BitVec.getLsbD_eq_getElem hi]

theorem pairAlign_toNat (w : Word) : (pairAlign w).toNat = w.toNat / 8 * 8 := by
  rw [pairAlign_eq, BitVec.toNat_shiftLeft, BitVec.toNat_ushiftRight, Nat.shiftLeft_eq, Nat.shiftRight_eq_div_pow]
  have := w.isLt
  rw [Nat.mod_eq_of_lt (by omega)]

/-- Quad-aligned addresses are closed under addition. -/
theorem quadAlign_add (a b : Word) (ha : quadAlign a = a) (hb : quadAlign b = b) : quadAlign (a + b) = a + b := by
  rw [quadAligned_iff] at *
  rw [BitVec.toNat_add]
  omega

/-- And under subtraction. -/
theorem quadAlign_sub (a b : Word) (ha : quadAlign a = a) (hb : quadAlign b = b) : quadAlign (a - b) = a - b := by
  rw [quadAligned_iff] at *
  rw [BitVec.toNat_sub]
  omega

theorem textAlign_eq (w : Word) : textAlign w = (w >>> 1) <<< 1 := by
  have key : ∀ j : Fin 32, (0xFFFFFFFE#32).getLsbD j.val = decide (1 ≤ j.val) := by decide
  ext i hi
  have hk : (0xFFFFFFFE#32)[i] = decide (1 ≤ i) := key ⟨i, hi⟩
  simp only [textAlign, BitVec.getElem_and, BitVec.getElem_shiftLeft, BitVec.getElem_ushiftRight, hk]
  by_cases h : i < 1
  · simp [h]
  · have h2 : 1 + (i - 1) = i := by omega
    have h3 : 1 ≤ i := by omega
    simp [h, h2, h3, BitVec.getLsbD_eq_getElem hi]

theorem textAlign_toNat (w : Word) : (textAlign w).toNat = w.toNat / 2 * 2 := by
  rw [textAlign_eq, BitVec.toNat_shiftLeft, BitVec.toNat_ushiftRight, Nat.shiftLeft_eq, Nat.shiftRight_eq_div_pow]
  have := w.isLt
  rw [Nat.mod_eq_of_lt (by omega)]

/-- A multiple of 16 is a multiple of 4. -/
theorem aligned4_of_quad (w : Word) (h : quadAlign w = w) : aligned w 4 = true := by
  rw [quadAligned_iff] at h
  simp only [aligned, beq_iff_eq]
  omega

/-- And so are the addresses a word offset away. -/
theorem aligned4_add (w k : Word) (h : quadAlign w = w) (hk : k.toNat % 4 = 0) : aligned (w + k) 4 = true := by
  rw [quadAligned_iff] at h
  simp only [aligned, beq_iff_eq, BitVec.toNat_add]
  omega

theorem aligned4_sub (w k : Word) (h : quadAlign w = w) (hk : k.toNat % 4 = 0) : aligned (w - k) 4 = true := by
  rw [quadAligned_iff] at h
  simp only [aligned, beq_iff_eq, BitVec.toNat_sub]
  omega

/-- Merging keeps a mask that holds both words. -/
theorem mergeBits_mask (m a b mask : Word) (ha : a &&& mask = a) (hb : b &&& mask = b) :
    mergeBits m a b &&& mask = mergeBits m a b := by
  ext i hi
  have h1 : (a[i] && mask[i]) = a[i] := by rw [← BitVec.getElem_and, ha]
  have h2 : (b[i] && mask[i]) = b[i] := by rw [← BitVec.getElem_and, hb]
  simp only [mergeBits, BitVec.getElem_and, BitVec.getElem_or, BitVec.getElem_not]
  revert h1 h2
  cases a[i] <;> cases b[i] <;> cases mask[i] <;> cases m[i] <;> simp

/-- Merging on bits inside a mask keeps it, whatever the merged word is. -/
theorem mergeBits_inside (m a b mask : Word) (ha : a &&& mask = a) (hm : m &&& mask = m) :
    mergeBits m a b &&& mask = mergeBits m a b := by
  ext i hi
  have h1 : (a[i] && mask[i]) = a[i] := by rw [← BitVec.getElem_and, ha]
  have h2 : (m[i] && mask[i]) = m[i] := by rw [← BitVec.getElem_and, hm]
  simp only [mergeBits, BitVec.getElem_and, BitVec.getElem_or, BitVec.getElem_not]
  revert h1 h2
  cases a[i] <;> cases b[i] <;> cases mask[i] <;> cases m[i] <;> simp

end Sys2Proof.Machine
end

