-- ==== Sys2Proof/Laws/State.lean ====
section
/-! SUPPORT. What each setter of `State` does to each field. -/

namespace Sys2Proof.Machine

@[simp] theorem State.setPc_pc (s : State) (v : Word) : (s.setPc v).pc = v := rfl
@[simp] theorem State.setPc_psw (s : State) (v : Word) : (s.setPc v).psw = s.psw := rfl
@[simp] theorem State.setPc_config (s : State) (v : Word) : (s.setPc v).config = s.config := rfl
@[simp] theorem State.setPc_isp (s : State) (v : Word) : (s.setPc v).isp = s.isp := rfl
@[simp] theorem State.setPc_msp (s : State) (v : Word) : (s.setPc v).msp = s.msp := rfl
@[simp] theorem State.setPc_sp (s : State) (v : Word) : (s.setPc v).sp = s.sp := rfl
@[simp] theorem State.setPc_shad (s : State) (v : Word) : (s.setPc v).shad = s.shad := rfl
@[simp] theorem State.setPc_vb (s : State) (v : Word) : (s.setPc v).vb = s.vb := rfl
@[simp] theorem State.setPc_stb (s : State) (v : Word) : (s.setPc v).stb = s.stb := rfl
@[simp] theorem State.setPc_fault (s : State) (v : Word) : (s.setPc v).fault = s.fault := rfl
@[simp] theorem State.setPc_timer1 (s : State) (v : Word) : (s.setPc v).timer1 = s.timer1 := rfl
@[simp] theorem State.setPc_timer2 (s : State) (v : Word) : (s.setPc v).timer2 = s.timer2 := rfl
@[simp] theorem State.setPc_cache (s : State) (v : Word) : (s.setPc v).cache = s.cache := rfl
@[simp] theorem State.setPc_mem (s : State) (v : Word) : (s.setPc v).mem = s.mem := rfl
@[simp] theorem State.setPc_textTlb (s : State) (v : Word) : (s.setPc v).textTlb = s.textTlb := rfl
@[simp] theorem State.setPc_dataTlb (s : State) (v : Word) : (s.setPc v).dataTlb = s.dataTlb := rfl
@[simp] theorem State.setPc_textNpsr (s : State) (v : Word) : (s.setPc v).textNpsr = s.textNpsr := rfl
@[simp] theorem State.setPc_dataNpsr (s : State) (v : Word) : (s.setPc v).dataNpsr = s.dataNpsr := rfl
@[simp] theorem State.setPc_pfbStale (s : State) (v : Word) : (s.setPc v).pfbStale = s.pfbStale := rfl
@[simp] theorem State.setPc_icStale (s : State) (v : Word) : (s.setPc v).icStale = s.icStale := rfl
@[simp] theorem State.setPc_textMaps (s : State) (v : Word) : (s.setPc v).textMaps = s.textMaps := rfl
@[simp] theorem State.setPc_pfbQuads (s : State) (v : Word) : (s.setPc v).pfbQuads = s.pfbQuads := rfl
@[simp] theorem State.setPc_ahead (s : State) (v : Word) : (s.setPc v).ahead = s.ahead := rfl
@[simp] theorem State.setPc_t1Pending (s : State) (v : Word) : (s.setPc v).t1Pending = s.t1Pending := rfl
@[simp] theorem State.setPc_t2Pending (s : State) (v : Word) : (s.setPc v).t2Pending = s.t2Pending := rfl
@[simp] theorem State.setPc_nmiArmed (s : State) (v : Word) : (s.setPc v).nmiArmed = s.nmiArmed := rfl
@[simp] theorem State.setPc_tracePending (s : State) (v : Word) : (s.setPc v).tracePending = s.tracePending := rfl
@[simp] theorem State.setPc_writeFaults (s : State) (v : Word) : (s.setPc v).writeFaults = s.writeFaults := rfl
@[simp] theorem State.setPc_configEff (s : State) (v : Word) : (s.setPc v).configEff = s.configEff := rfl
@[simp] theorem State.setPc_vpEff (s : State) (v : Word) : (s.setPc v).vpEff = s.vpEff := rfl
@[simp] theorem State.setPc_recent (s : State) (v : Word) : (s.setPc v).recent = s.recent := rfl
@[simp] theorem State.setPc_ended (s : State) (v : Word) : (s.setPc v).ended = s.ended := rfl
@[simp] theorem State.setPc_foldable (s : State) (v : Word) : (s.setPc v).foldable = s.foldable := rfl
@[simp] theorem State.setPc_free (s : State) (v : Word) : (s.setPc v).free = s.free := rfl
@[simp] theorem State.setPc_busMap (s : State) (v : Word) : (s.setPc v).busMap = s.busMap := rfl
@[simp] theorem State.setPc_pins (s : State) (v : Word) : (s.setPc v).pins = s.pins := rfl
@[simp] theorem State.setPc_turns (s : State) (v : Word) : (s.setPc v).turns = s.turns := rfl
@[simp] theorem State.setPsw_pc (s : State) (v : Word) : (s.setPsw v).pc = s.pc := rfl
@[simp] theorem State.setPsw_psw (s : State) (v : Word) : (s.setPsw v).psw = v := rfl
@[simp] theorem State.setPsw_config (s : State) (v : Word) : (s.setPsw v).config = s.config := rfl
@[simp] theorem State.setPsw_isp (s : State) (v : Word) : (s.setPsw v).isp = s.isp := rfl
@[simp] theorem State.setPsw_msp (s : State) (v : Word) : (s.setPsw v).msp = s.msp := rfl
@[simp] theorem State.setPsw_sp (s : State) (v : Word) : (s.setPsw v).sp = s.sp := rfl
@[simp] theorem State.setPsw_shad (s : State) (v : Word) : (s.setPsw v).shad = s.shad := rfl
@[simp] theorem State.setPsw_vb (s : State) (v : Word) : (s.setPsw v).vb = s.vb := rfl
@[simp] theorem State.setPsw_stb (s : State) (v : Word) : (s.setPsw v).stb = s.stb := rfl
@[simp] theorem State.setPsw_fault (s : State) (v : Word) : (s.setPsw v).fault = s.fault := rfl
@[simp] theorem State.setPsw_timer1 (s : State) (v : Word) : (s.setPsw v).timer1 = s.timer1 := rfl
@[simp] theorem State.setPsw_timer2 (s : State) (v : Word) : (s.setPsw v).timer2 = s.timer2 := rfl
@[simp] theorem State.setPsw_cache (s : State) (v : Word) : (s.setPsw v).cache = s.cache := rfl
@[simp] theorem State.setPsw_mem (s : State) (v : Word) : (s.setPsw v).mem = s.mem := rfl
@[simp] theorem State.setPsw_textTlb (s : State) (v : Word) : (s.setPsw v).textTlb = s.textTlb := rfl
@[simp] theorem State.setPsw_dataTlb (s : State) (v : Word) : (s.setPsw v).dataTlb = s.dataTlb := rfl
@[simp] theorem State.setPsw_textNpsr (s : State) (v : Word) : (s.setPsw v).textNpsr = s.textNpsr := rfl
@[simp] theorem State.setPsw_dataNpsr (s : State) (v : Word) : (s.setPsw v).dataNpsr = s.dataNpsr := rfl
@[simp] theorem State.setPsw_pfbStale (s : State) (v : Word) : (s.setPsw v).pfbStale = s.pfbStale := rfl
@[simp] theorem State.setPsw_icStale (s : State) (v : Word) : (s.setPsw v).icStale = s.icStale := rfl
@[simp] theorem State.setPsw_textMaps (s : State) (v : Word) : (s.setPsw v).textMaps = s.textMaps := rfl
@[simp] theorem State.setPsw_pfbQuads (s : State) (v : Word) : (s.setPsw v).pfbQuads = s.pfbQuads := rfl
@[simp] theorem State.setPsw_ahead (s : State) (v : Word) : (s.setPsw v).ahead = s.ahead := rfl
@[simp] theorem State.setPsw_t1Pending (s : State) (v : Word) : (s.setPsw v).t1Pending = s.t1Pending := rfl
@[simp] theorem State.setPsw_t2Pending (s : State) (v : Word) : (s.setPsw v).t2Pending = s.t2Pending := rfl
@[simp] theorem State.setPsw_nmiArmed (s : State) (v : Word) : (s.setPsw v).nmiArmed = s.nmiArmed := rfl
@[simp] theorem State.setPsw_tracePending (s : State) (v : Word) : (s.setPsw v).tracePending = s.tracePending := rfl
@[simp] theorem State.setPsw_writeFaults (s : State) (v : Word) : (s.setPsw v).writeFaults = s.writeFaults := rfl
@[simp] theorem State.setPsw_configEff (s : State) (v : Word) : (s.setPsw v).configEff = s.configEff := rfl
@[simp] theorem State.setPsw_vpEff (s : State) (v : Word) : (s.setPsw v).vpEff = s.vpEff := rfl
@[simp] theorem State.setPsw_recent (s : State) (v : Word) : (s.setPsw v).recent = s.recent := rfl
@[simp] theorem State.setPsw_ended (s : State) (v : Word) : (s.setPsw v).ended = s.ended := rfl
@[simp] theorem State.setPsw_foldable (s : State) (v : Word) : (s.setPsw v).foldable = s.foldable := rfl
@[simp] theorem State.setPsw_free (s : State) (v : Word) : (s.setPsw v).free = s.free := rfl
@[simp] theorem State.setPsw_busMap (s : State) (v : Word) : (s.setPsw v).busMap = s.busMap := rfl
@[simp] theorem State.setPsw_pins (s : State) (v : Word) : (s.setPsw v).pins = s.pins := rfl
@[simp] theorem State.setPsw_turns (s : State) (v : Word) : (s.setPsw v).turns = s.turns := rfl
@[simp] theorem State.setConfig_pc (s : State) (v : Word) : (s.setConfig v).pc = s.pc := rfl
@[simp] theorem State.setConfig_psw (s : State) (v : Word) : (s.setConfig v).psw = s.psw := rfl
@[simp] theorem State.setConfig_config (s : State) (v : Word) : (s.setConfig v).config = v := rfl
@[simp] theorem State.setConfig_isp (s : State) (v : Word) : (s.setConfig v).isp = s.isp := rfl
@[simp] theorem State.setConfig_msp (s : State) (v : Word) : (s.setConfig v).msp = s.msp := rfl
@[simp] theorem State.setConfig_sp (s : State) (v : Word) : (s.setConfig v).sp = s.sp := rfl
@[simp] theorem State.setConfig_shad (s : State) (v : Word) : (s.setConfig v).shad = s.shad := rfl
@[simp] theorem State.setConfig_vb (s : State) (v : Word) : (s.setConfig v).vb = s.vb := rfl
@[simp] theorem State.setConfig_stb (s : State) (v : Word) : (s.setConfig v).stb = s.stb := rfl
@[simp] theorem State.setConfig_fault (s : State) (v : Word) : (s.setConfig v).fault = s.fault := rfl
@[simp] theorem State.setConfig_timer1 (s : State) (v : Word) : (s.setConfig v).timer1 = s.timer1 := rfl
@[simp] theorem State.setConfig_timer2 (s : State) (v : Word) : (s.setConfig v).timer2 = s.timer2 := rfl
@[simp] theorem State.setConfig_cache (s : State) (v : Word) : (s.setConfig v).cache = s.cache := rfl
@[simp] theorem State.setConfig_mem (s : State) (v : Word) : (s.setConfig v).mem = s.mem := rfl
@[simp] theorem State.setConfig_textTlb (s : State) (v : Word) : (s.setConfig v).textTlb = s.textTlb := rfl
@[simp] theorem State.setConfig_dataTlb (s : State) (v : Word) : (s.setConfig v).dataTlb = s.dataTlb := rfl
@[simp] theorem State.setConfig_textNpsr (s : State) (v : Word) : (s.setConfig v).textNpsr = s.textNpsr := rfl
@[simp] theorem State.setConfig_dataNpsr (s : State) (v : Word) : (s.setConfig v).dataNpsr = s.dataNpsr := rfl
@[simp] theorem State.setConfig_pfbStale (s : State) (v : Word) : (s.setConfig v).pfbStale = s.pfbStale := rfl
@[simp] theorem State.setConfig_icStale (s : State) (v : Word) : (s.setConfig v).icStale = s.icStale := rfl
@[simp] theorem State.setConfig_textMaps (s : State) (v : Word) : (s.setConfig v).textMaps = s.textMaps := rfl
@[simp] theorem State.setConfig_pfbQuads (s : State) (v : Word) : (s.setConfig v).pfbQuads = s.pfbQuads := rfl
@[simp] theorem State.setConfig_ahead (s : State) (v : Word) : (s.setConfig v).ahead = s.ahead := rfl
@[simp] theorem State.setConfig_t1Pending (s : State) (v : Word) : (s.setConfig v).t1Pending = s.t1Pending := rfl
@[simp] theorem State.setConfig_t2Pending (s : State) (v : Word) : (s.setConfig v).t2Pending = s.t2Pending := rfl
@[simp] theorem State.setConfig_nmiArmed (s : State) (v : Word) : (s.setConfig v).nmiArmed = s.nmiArmed := rfl
@[simp] theorem State.setConfig_tracePending (s : State) (v : Word) : (s.setConfig v).tracePending = s.tracePending := rfl
@[simp] theorem State.setConfig_writeFaults (s : State) (v : Word) : (s.setConfig v).writeFaults = s.writeFaults := rfl
@[simp] theorem State.setConfig_configEff (s : State) (v : Word) : (s.setConfig v).configEff = s.configEff := rfl
@[simp] theorem State.setConfig_vpEff (s : State) (v : Word) : (s.setConfig v).vpEff = s.vpEff := rfl
@[simp] theorem State.setConfig_recent (s : State) (v : Word) : (s.setConfig v).recent = s.recent := rfl
@[simp] theorem State.setConfig_ended (s : State) (v : Word) : (s.setConfig v).ended = s.ended := rfl
@[simp] theorem State.setConfig_foldable (s : State) (v : Word) : (s.setConfig v).foldable = s.foldable := rfl
@[simp] theorem State.setConfig_free (s : State) (v : Word) : (s.setConfig v).free = s.free := rfl
@[simp] theorem State.setConfig_busMap (s : State) (v : Word) : (s.setConfig v).busMap = s.busMap := rfl
@[simp] theorem State.setConfig_pins (s : State) (v : Word) : (s.setConfig v).pins = s.pins := rfl
@[simp] theorem State.setConfig_turns (s : State) (v : Word) : (s.setConfig v).turns = s.turns := rfl
@[simp] theorem State.setIsp_pc (s : State) (v : Word) : (s.setIsp v).pc = s.pc := rfl
@[simp] theorem State.setIsp_psw (s : State) (v : Word) : (s.setIsp v).psw = s.psw := rfl
@[simp] theorem State.setIsp_config (s : State) (v : Word) : (s.setIsp v).config = s.config := rfl
@[simp] theorem State.setIsp_isp (s : State) (v : Word) : (s.setIsp v).isp = v := rfl
@[simp] theorem State.setIsp_msp (s : State) (v : Word) : (s.setIsp v).msp = s.msp := rfl
@[simp] theorem State.setIsp_sp (s : State) (v : Word) : (s.setIsp v).sp = s.sp := rfl
@[simp] theorem State.setIsp_shad (s : State) (v : Word) : (s.setIsp v).shad = s.shad := rfl
@[simp] theorem State.setIsp_vb (s : State) (v : Word) : (s.setIsp v).vb = s.vb := rfl
@[simp] theorem State.setIsp_stb (s : State) (v : Word) : (s.setIsp v).stb = s.stb := rfl
@[simp] theorem State.setIsp_fault (s : State) (v : Word) : (s.setIsp v).fault = s.fault := rfl
@[simp] theorem State.setIsp_timer1 (s : State) (v : Word) : (s.setIsp v).timer1 = s.timer1 := rfl
@[simp] theorem State.setIsp_timer2 (s : State) (v : Word) : (s.setIsp v).timer2 = s.timer2 := rfl
@[simp] theorem State.setIsp_cache (s : State) (v : Word) : (s.setIsp v).cache = s.cache := rfl
@[simp] theorem State.setIsp_mem (s : State) (v : Word) : (s.setIsp v).mem = s.mem := rfl
@[simp] theorem State.setIsp_textTlb (s : State) (v : Word) : (s.setIsp v).textTlb = s.textTlb := rfl
@[simp] theorem State.setIsp_dataTlb (s : State) (v : Word) : (s.setIsp v).dataTlb = s.dataTlb := rfl
@[simp] theorem State.setIsp_textNpsr (s : State) (v : Word) : (s.setIsp v).textNpsr = s.textNpsr := rfl
@[simp] theorem State.setIsp_dataNpsr (s : State) (v : Word) : (s.setIsp v).dataNpsr = s.dataNpsr := rfl
@[simp] theorem State.setIsp_pfbStale (s : State) (v : Word) : (s.setIsp v).pfbStale = s.pfbStale := rfl
@[simp] theorem State.setIsp_icStale (s : State) (v : Word) : (s.setIsp v).icStale = s.icStale := rfl
@[simp] theorem State.setIsp_textMaps (s : State) (v : Word) : (s.setIsp v).textMaps = s.textMaps := rfl
@[simp] theorem State.setIsp_pfbQuads (s : State) (v : Word) : (s.setIsp v).pfbQuads = s.pfbQuads := rfl
@[simp] theorem State.setIsp_ahead (s : State) (v : Word) : (s.setIsp v).ahead = s.ahead := rfl
@[simp] theorem State.setIsp_t1Pending (s : State) (v : Word) : (s.setIsp v).t1Pending = s.t1Pending := rfl
@[simp] theorem State.setIsp_t2Pending (s : State) (v : Word) : (s.setIsp v).t2Pending = s.t2Pending := rfl
@[simp] theorem State.setIsp_nmiArmed (s : State) (v : Word) : (s.setIsp v).nmiArmed = s.nmiArmed := rfl
@[simp] theorem State.setIsp_tracePending (s : State) (v : Word) : (s.setIsp v).tracePending = s.tracePending := rfl
@[simp] theorem State.setIsp_writeFaults (s : State) (v : Word) : (s.setIsp v).writeFaults = s.writeFaults := rfl
@[simp] theorem State.setIsp_configEff (s : State) (v : Word) : (s.setIsp v).configEff = s.configEff := rfl
@[simp] theorem State.setIsp_vpEff (s : State) (v : Word) : (s.setIsp v).vpEff = s.vpEff := rfl
@[simp] theorem State.setIsp_recent (s : State) (v : Word) : (s.setIsp v).recent = s.recent := rfl
@[simp] theorem State.setIsp_ended (s : State) (v : Word) : (s.setIsp v).ended = s.ended := rfl
@[simp] theorem State.setIsp_foldable (s : State) (v : Word) : (s.setIsp v).foldable = s.foldable := rfl
@[simp] theorem State.setIsp_free (s : State) (v : Word) : (s.setIsp v).free = s.free := rfl
@[simp] theorem State.setIsp_busMap (s : State) (v : Word) : (s.setIsp v).busMap = s.busMap := rfl
@[simp] theorem State.setIsp_pins (s : State) (v : Word) : (s.setIsp v).pins = s.pins := rfl
@[simp] theorem State.setIsp_turns (s : State) (v : Word) : (s.setIsp v).turns = s.turns := rfl
@[simp] theorem State.setMsp_pc (s : State) (v : Word) : (s.setMsp v).pc = s.pc := rfl
@[simp] theorem State.setMsp_psw (s : State) (v : Word) : (s.setMsp v).psw = s.psw := rfl
@[simp] theorem State.setMsp_config (s : State) (v : Word) : (s.setMsp v).config = s.config := rfl
@[simp] theorem State.setMsp_isp (s : State) (v : Word) : (s.setMsp v).isp = s.isp := rfl
@[simp] theorem State.setMsp_msp (s : State) (v : Word) : (s.setMsp v).msp = v := rfl
@[simp] theorem State.setMsp_sp (s : State) (v : Word) : (s.setMsp v).sp = s.sp := rfl
@[simp] theorem State.setMsp_shad (s : State) (v : Word) : (s.setMsp v).shad = s.shad := rfl
@[simp] theorem State.setMsp_vb (s : State) (v : Word) : (s.setMsp v).vb = s.vb := rfl
@[simp] theorem State.setMsp_stb (s : State) (v : Word) : (s.setMsp v).stb = s.stb := rfl
@[simp] theorem State.setMsp_fault (s : State) (v : Word) : (s.setMsp v).fault = s.fault := rfl
@[simp] theorem State.setMsp_timer1 (s : State) (v : Word) : (s.setMsp v).timer1 = s.timer1 := rfl
@[simp] theorem State.setMsp_timer2 (s : State) (v : Word) : (s.setMsp v).timer2 = s.timer2 := rfl
@[simp] theorem State.setMsp_cache (s : State) (v : Word) : (s.setMsp v).cache = s.cache := rfl
@[simp] theorem State.setMsp_mem (s : State) (v : Word) : (s.setMsp v).mem = s.mem := rfl
@[simp] theorem State.setMsp_textTlb (s : State) (v : Word) : (s.setMsp v).textTlb = s.textTlb := rfl
@[simp] theorem State.setMsp_dataTlb (s : State) (v : Word) : (s.setMsp v).dataTlb = s.dataTlb := rfl
@[simp] theorem State.setMsp_textNpsr (s : State) (v : Word) : (s.setMsp v).textNpsr = s.textNpsr := rfl
@[simp] theorem State.setMsp_dataNpsr (s : State) (v : Word) : (s.setMsp v).dataNpsr = s.dataNpsr := rfl
@[simp] theorem State.setMsp_pfbStale (s : State) (v : Word) : (s.setMsp v).pfbStale = s.pfbStale := rfl
@[simp] theorem State.setMsp_icStale (s : State) (v : Word) : (s.setMsp v).icStale = s.icStale := rfl
@[simp] theorem State.setMsp_textMaps (s : State) (v : Word) : (s.setMsp v).textMaps = s.textMaps := rfl
@[simp] theorem State.setMsp_pfbQuads (s : State) (v : Word) : (s.setMsp v).pfbQuads = s.pfbQuads := rfl
@[simp] theorem State.setMsp_ahead (s : State) (v : Word) : (s.setMsp v).ahead = s.ahead := rfl
@[simp] theorem State.setMsp_t1Pending (s : State) (v : Word) : (s.setMsp v).t1Pending = s.t1Pending := rfl
@[simp] theorem State.setMsp_t2Pending (s : State) (v : Word) : (s.setMsp v).t2Pending = s.t2Pending := rfl
@[simp] theorem State.setMsp_nmiArmed (s : State) (v : Word) : (s.setMsp v).nmiArmed = s.nmiArmed := rfl
@[simp] theorem State.setMsp_tracePending (s : State) (v : Word) : (s.setMsp v).tracePending = s.tracePending := rfl
@[simp] theorem State.setMsp_writeFaults (s : State) (v : Word) : (s.setMsp v).writeFaults = s.writeFaults := rfl
@[simp] theorem State.setMsp_configEff (s : State) (v : Word) : (s.setMsp v).configEff = s.configEff := rfl
@[simp] theorem State.setMsp_vpEff (s : State) (v : Word) : (s.setMsp v).vpEff = s.vpEff := rfl
@[simp] theorem State.setMsp_recent (s : State) (v : Word) : (s.setMsp v).recent = s.recent := rfl
@[simp] theorem State.setMsp_ended (s : State) (v : Word) : (s.setMsp v).ended = s.ended := rfl
@[simp] theorem State.setMsp_foldable (s : State) (v : Word) : (s.setMsp v).foldable = s.foldable := rfl
@[simp] theorem State.setMsp_free (s : State) (v : Word) : (s.setMsp v).free = s.free := rfl
@[simp] theorem State.setMsp_busMap (s : State) (v : Word) : (s.setMsp v).busMap = s.busMap := rfl
@[simp] theorem State.setMsp_pins (s : State) (v : Word) : (s.setMsp v).pins = s.pins := rfl
@[simp] theorem State.setMsp_turns (s : State) (v : Word) : (s.setMsp v).turns = s.turns := rfl
@[simp] theorem State.setSp_pc (s : State) (v : Word) : (s.setSp v).pc = s.pc := rfl
@[simp] theorem State.setSp_psw (s : State) (v : Word) : (s.setSp v).psw = s.psw := rfl
@[simp] theorem State.setSp_config (s : State) (v : Word) : (s.setSp v).config = s.config := rfl
@[simp] theorem State.setSp_isp (s : State) (v : Word) : (s.setSp v).isp = s.isp := rfl
@[simp] theorem State.setSp_msp (s : State) (v : Word) : (s.setSp v).msp = s.msp := rfl
@[simp] theorem State.setSp_sp (s : State) (v : Word) : (s.setSp v).sp = v := rfl
@[simp] theorem State.setSp_shad (s : State) (v : Word) : (s.setSp v).shad = s.shad := rfl
@[simp] theorem State.setSp_vb (s : State) (v : Word) : (s.setSp v).vb = s.vb := rfl
@[simp] theorem State.setSp_stb (s : State) (v : Word) : (s.setSp v).stb = s.stb := rfl
@[simp] theorem State.setSp_fault (s : State) (v : Word) : (s.setSp v).fault = s.fault := rfl
@[simp] theorem State.setSp_timer1 (s : State) (v : Word) : (s.setSp v).timer1 = s.timer1 := rfl
@[simp] theorem State.setSp_timer2 (s : State) (v : Word) : (s.setSp v).timer2 = s.timer2 := rfl
@[simp] theorem State.setSp_cache (s : State) (v : Word) : (s.setSp v).cache = s.cache := rfl
@[simp] theorem State.setSp_mem (s : State) (v : Word) : (s.setSp v).mem = s.mem := rfl
@[simp] theorem State.setSp_textTlb (s : State) (v : Word) : (s.setSp v).textTlb = s.textTlb := rfl
@[simp] theorem State.setSp_dataTlb (s : State) (v : Word) : (s.setSp v).dataTlb = s.dataTlb := rfl
@[simp] theorem State.setSp_textNpsr (s : State) (v : Word) : (s.setSp v).textNpsr = s.textNpsr := rfl
@[simp] theorem State.setSp_dataNpsr (s : State) (v : Word) : (s.setSp v).dataNpsr = s.dataNpsr := rfl
@[simp] theorem State.setSp_pfbStale (s : State) (v : Word) : (s.setSp v).pfbStale = s.pfbStale := rfl
@[simp] theorem State.setSp_icStale (s : State) (v : Word) : (s.setSp v).icStale = s.icStale := rfl
@[simp] theorem State.setSp_textMaps (s : State) (v : Word) : (s.setSp v).textMaps = s.textMaps := rfl
@[simp] theorem State.setSp_pfbQuads (s : State) (v : Word) : (s.setSp v).pfbQuads = s.pfbQuads := rfl
@[simp] theorem State.setSp_ahead (s : State) (v : Word) : (s.setSp v).ahead = s.ahead := rfl
@[simp] theorem State.setSp_t1Pending (s : State) (v : Word) : (s.setSp v).t1Pending = s.t1Pending := rfl
@[simp] theorem State.setSp_t2Pending (s : State) (v : Word) : (s.setSp v).t2Pending = s.t2Pending := rfl
@[simp] theorem State.setSp_nmiArmed (s : State) (v : Word) : (s.setSp v).nmiArmed = s.nmiArmed := rfl
@[simp] theorem State.setSp_tracePending (s : State) (v : Word) : (s.setSp v).tracePending = s.tracePending := rfl
@[simp] theorem State.setSp_writeFaults (s : State) (v : Word) : (s.setSp v).writeFaults = s.writeFaults := rfl
@[simp] theorem State.setSp_configEff (s : State) (v : Word) : (s.setSp v).configEff = s.configEff := rfl
@[simp] theorem State.setSp_vpEff (s : State) (v : Word) : (s.setSp v).vpEff = s.vpEff := rfl
@[simp] theorem State.setSp_recent (s : State) (v : Word) : (s.setSp v).recent = s.recent := rfl
@[simp] theorem State.setSp_ended (s : State) (v : Word) : (s.setSp v).ended = s.ended := rfl
@[simp] theorem State.setSp_foldable (s : State) (v : Word) : (s.setSp v).foldable = s.foldable := rfl
@[simp] theorem State.setSp_free (s : State) (v : Word) : (s.setSp v).free = s.free := rfl
@[simp] theorem State.setSp_busMap (s : State) (v : Word) : (s.setSp v).busMap = s.busMap := rfl
@[simp] theorem State.setSp_pins (s : State) (v : Word) : (s.setSp v).pins = s.pins := rfl
@[simp] theorem State.setSp_turns (s : State) (v : Word) : (s.setSp v).turns = s.turns := rfl
@[simp] theorem State.setShad_pc (s : State) (v : Word) : (s.setShad v).pc = s.pc := rfl
@[simp] theorem State.setShad_psw (s : State) (v : Word) : (s.setShad v).psw = s.psw := rfl
@[simp] theorem State.setShad_config (s : State) (v : Word) : (s.setShad v).config = s.config := rfl
@[simp] theorem State.setShad_isp (s : State) (v : Word) : (s.setShad v).isp = s.isp := rfl
@[simp] theorem State.setShad_msp (s : State) (v : Word) : (s.setShad v).msp = s.msp := rfl
@[simp] theorem State.setShad_sp (s : State) (v : Word) : (s.setShad v).sp = s.sp := rfl
@[simp] theorem State.setShad_shad (s : State) (v : Word) : (s.setShad v).shad = v := rfl
@[simp] theorem State.setShad_vb (s : State) (v : Word) : (s.setShad v).vb = s.vb := rfl
@[simp] theorem State.setShad_stb (s : State) (v : Word) : (s.setShad v).stb = s.stb := rfl
@[simp] theorem State.setShad_fault (s : State) (v : Word) : (s.setShad v).fault = s.fault := rfl
@[simp] theorem State.setShad_timer1 (s : State) (v : Word) : (s.setShad v).timer1 = s.timer1 := rfl
@[simp] theorem State.setShad_timer2 (s : State) (v : Word) : (s.setShad v).timer2 = s.timer2 := rfl
@[simp] theorem State.setShad_cache (s : State) (v : Word) : (s.setShad v).cache = s.cache := rfl
@[simp] theorem State.setShad_mem (s : State) (v : Word) : (s.setShad v).mem = s.mem := rfl
@[simp] theorem State.setShad_textTlb (s : State) (v : Word) : (s.setShad v).textTlb = s.textTlb := rfl
@[simp] theorem State.setShad_dataTlb (s : State) (v : Word) : (s.setShad v).dataTlb = s.dataTlb := rfl
@[simp] theorem State.setShad_textNpsr (s : State) (v : Word) : (s.setShad v).textNpsr = s.textNpsr := rfl
@[simp] theorem State.setShad_dataNpsr (s : State) (v : Word) : (s.setShad v).dataNpsr = s.dataNpsr := rfl
@[simp] theorem State.setShad_pfbStale (s : State) (v : Word) : (s.setShad v).pfbStale = s.pfbStale := rfl
@[simp] theorem State.setShad_icStale (s : State) (v : Word) : (s.setShad v).icStale = s.icStale := rfl
@[simp] theorem State.setShad_textMaps (s : State) (v : Word) : (s.setShad v).textMaps = s.textMaps := rfl
@[simp] theorem State.setShad_pfbQuads (s : State) (v : Word) : (s.setShad v).pfbQuads = s.pfbQuads := rfl
@[simp] theorem State.setShad_ahead (s : State) (v : Word) : (s.setShad v).ahead = s.ahead := rfl
@[simp] theorem State.setShad_t1Pending (s : State) (v : Word) : (s.setShad v).t1Pending = s.t1Pending := rfl
@[simp] theorem State.setShad_t2Pending (s : State) (v : Word) : (s.setShad v).t2Pending = s.t2Pending := rfl
@[simp] theorem State.setShad_nmiArmed (s : State) (v : Word) : (s.setShad v).nmiArmed = s.nmiArmed := rfl
@[simp] theorem State.setShad_tracePending (s : State) (v : Word) : (s.setShad v).tracePending = s.tracePending := rfl
@[simp] theorem State.setShad_writeFaults (s : State) (v : Word) : (s.setShad v).writeFaults = s.writeFaults := rfl
@[simp] theorem State.setShad_configEff (s : State) (v : Word) : (s.setShad v).configEff = s.configEff := rfl
@[simp] theorem State.setShad_vpEff (s : State) (v : Word) : (s.setShad v).vpEff = s.vpEff := rfl
@[simp] theorem State.setShad_recent (s : State) (v : Word) : (s.setShad v).recent = s.recent := rfl
@[simp] theorem State.setShad_ended (s : State) (v : Word) : (s.setShad v).ended = s.ended := rfl
@[simp] theorem State.setShad_foldable (s : State) (v : Word) : (s.setShad v).foldable = s.foldable := rfl
@[simp] theorem State.setShad_free (s : State) (v : Word) : (s.setShad v).free = s.free := rfl
@[simp] theorem State.setShad_busMap (s : State) (v : Word) : (s.setShad v).busMap = s.busMap := rfl
@[simp] theorem State.setShad_pins (s : State) (v : Word) : (s.setShad v).pins = s.pins := rfl
@[simp] theorem State.setShad_turns (s : State) (v : Word) : (s.setShad v).turns = s.turns := rfl
@[simp] theorem State.setVb_pc (s : State) (v : Word) : (s.setVb v).pc = s.pc := rfl
@[simp] theorem State.setVb_psw (s : State) (v : Word) : (s.setVb v).psw = s.psw := rfl
@[simp] theorem State.setVb_config (s : State) (v : Word) : (s.setVb v).config = s.config := rfl
@[simp] theorem State.setVb_isp (s : State) (v : Word) : (s.setVb v).isp = s.isp := rfl
@[simp] theorem State.setVb_msp (s : State) (v : Word) : (s.setVb v).msp = s.msp := rfl
@[simp] theorem State.setVb_sp (s : State) (v : Word) : (s.setVb v).sp = s.sp := rfl
@[simp] theorem State.setVb_shad (s : State) (v : Word) : (s.setVb v).shad = s.shad := rfl
@[simp] theorem State.setVb_vb (s : State) (v : Word) : (s.setVb v).vb = v := rfl
@[simp] theorem State.setVb_stb (s : State) (v : Word) : (s.setVb v).stb = s.stb := rfl
@[simp] theorem State.setVb_fault (s : State) (v : Word) : (s.setVb v).fault = s.fault := rfl
@[simp] theorem State.setVb_timer1 (s : State) (v : Word) : (s.setVb v).timer1 = s.timer1 := rfl
@[simp] theorem State.setVb_timer2 (s : State) (v : Word) : (s.setVb v).timer2 = s.timer2 := rfl
@[simp] theorem State.setVb_cache (s : State) (v : Word) : (s.setVb v).cache = s.cache := rfl
@[simp] theorem State.setVb_mem (s : State) (v : Word) : (s.setVb v).mem = s.mem := rfl
@[simp] theorem State.setVb_textTlb (s : State) (v : Word) : (s.setVb v).textTlb = s.textTlb := rfl
@[simp] theorem State.setVb_dataTlb (s : State) (v : Word) : (s.setVb v).dataTlb = s.dataTlb := rfl
@[simp] theorem State.setVb_textNpsr (s : State) (v : Word) : (s.setVb v).textNpsr = s.textNpsr := rfl
@[simp] theorem State.setVb_dataNpsr (s : State) (v : Word) : (s.setVb v).dataNpsr = s.dataNpsr := rfl
@[simp] theorem State.setVb_pfbStale (s : State) (v : Word) : (s.setVb v).pfbStale = s.pfbStale := rfl
@[simp] theorem State.setVb_icStale (s : State) (v : Word) : (s.setVb v).icStale = s.icStale := rfl
@[simp] theorem State.setVb_textMaps (s : State) (v : Word) : (s.setVb v).textMaps = s.textMaps := rfl
@[simp] theorem State.setVb_pfbQuads (s : State) (v : Word) : (s.setVb v).pfbQuads = s.pfbQuads := rfl
@[simp] theorem State.setVb_ahead (s : State) (v : Word) : (s.setVb v).ahead = s.ahead := rfl
@[simp] theorem State.setVb_t1Pending (s : State) (v : Word) : (s.setVb v).t1Pending = s.t1Pending := rfl
@[simp] theorem State.setVb_t2Pending (s : State) (v : Word) : (s.setVb v).t2Pending = s.t2Pending := rfl
@[simp] theorem State.setVb_nmiArmed (s : State) (v : Word) : (s.setVb v).nmiArmed = s.nmiArmed := rfl
@[simp] theorem State.setVb_tracePending (s : State) (v : Word) : (s.setVb v).tracePending = s.tracePending := rfl
@[simp] theorem State.setVb_writeFaults (s : State) (v : Word) : (s.setVb v).writeFaults = s.writeFaults := rfl
@[simp] theorem State.setVb_configEff (s : State) (v : Word) : (s.setVb v).configEff = s.configEff := rfl
@[simp] theorem State.setVb_vpEff (s : State) (v : Word) : (s.setVb v).vpEff = s.vpEff := rfl
@[simp] theorem State.setVb_recent (s : State) (v : Word) : (s.setVb v).recent = s.recent := rfl
@[simp] theorem State.setVb_ended (s : State) (v : Word) : (s.setVb v).ended = s.ended := rfl
@[simp] theorem State.setVb_foldable (s : State) (v : Word) : (s.setVb v).foldable = s.foldable := rfl
@[simp] theorem State.setVb_free (s : State) (v : Word) : (s.setVb v).free = s.free := rfl
@[simp] theorem State.setVb_busMap (s : State) (v : Word) : (s.setVb v).busMap = s.busMap := rfl
@[simp] theorem State.setVb_pins (s : State) (v : Word) : (s.setVb v).pins = s.pins := rfl
@[simp] theorem State.setVb_turns (s : State) (v : Word) : (s.setVb v).turns = s.turns := rfl
@[simp] theorem State.setStb_pc (s : State) (v : Word) : (s.setStb v).pc = s.pc := rfl
@[simp] theorem State.setStb_psw (s : State) (v : Word) : (s.setStb v).psw = s.psw := rfl
@[simp] theorem State.setStb_config (s : State) (v : Word) : (s.setStb v).config = s.config := rfl
@[simp] theorem State.setStb_isp (s : State) (v : Word) : (s.setStb v).isp = s.isp := rfl
@[simp] theorem State.setStb_msp (s : State) (v : Word) : (s.setStb v).msp = s.msp := rfl
@[simp] theorem State.setStb_sp (s : State) (v : Word) : (s.setStb v).sp = s.sp := rfl
@[simp] theorem State.setStb_shad (s : State) (v : Word) : (s.setStb v).shad = s.shad := rfl
@[simp] theorem State.setStb_vb (s : State) (v : Word) : (s.setStb v).vb = s.vb := rfl
@[simp] theorem State.setStb_stb (s : State) (v : Word) : (s.setStb v).stb = v := rfl
@[simp] theorem State.setStb_fault (s : State) (v : Word) : (s.setStb v).fault = s.fault := rfl
@[simp] theorem State.setStb_timer1 (s : State) (v : Word) : (s.setStb v).timer1 = s.timer1 := rfl
@[simp] theorem State.setStb_timer2 (s : State) (v : Word) : (s.setStb v).timer2 = s.timer2 := rfl
@[simp] theorem State.setStb_cache (s : State) (v : Word) : (s.setStb v).cache = s.cache := rfl
@[simp] theorem State.setStb_mem (s : State) (v : Word) : (s.setStb v).mem = s.mem := rfl
@[simp] theorem State.setStb_textTlb (s : State) (v : Word) : (s.setStb v).textTlb = s.textTlb := rfl
@[simp] theorem State.setStb_dataTlb (s : State) (v : Word) : (s.setStb v).dataTlb = s.dataTlb := rfl
@[simp] theorem State.setStb_textNpsr (s : State) (v : Word) : (s.setStb v).textNpsr = s.textNpsr := rfl
@[simp] theorem State.setStb_dataNpsr (s : State) (v : Word) : (s.setStb v).dataNpsr = s.dataNpsr := rfl
@[simp] theorem State.setStb_pfbStale (s : State) (v : Word) : (s.setStb v).pfbStale = s.pfbStale := rfl
@[simp] theorem State.setStb_icStale (s : State) (v : Word) : (s.setStb v).icStale = s.icStale := rfl
@[simp] theorem State.setStb_textMaps (s : State) (v : Word) : (s.setStb v).textMaps = s.textMaps := rfl
@[simp] theorem State.setStb_pfbQuads (s : State) (v : Word) : (s.setStb v).pfbQuads = s.pfbQuads := rfl
@[simp] theorem State.setStb_ahead (s : State) (v : Word) : (s.setStb v).ahead = s.ahead := rfl
@[simp] theorem State.setStb_t1Pending (s : State) (v : Word) : (s.setStb v).t1Pending = s.t1Pending := rfl
@[simp] theorem State.setStb_t2Pending (s : State) (v : Word) : (s.setStb v).t2Pending = s.t2Pending := rfl
@[simp] theorem State.setStb_nmiArmed (s : State) (v : Word) : (s.setStb v).nmiArmed = s.nmiArmed := rfl
@[simp] theorem State.setStb_tracePending (s : State) (v : Word) : (s.setStb v).tracePending = s.tracePending := rfl
@[simp] theorem State.setStb_writeFaults (s : State) (v : Word) : (s.setStb v).writeFaults = s.writeFaults := rfl
@[simp] theorem State.setStb_configEff (s : State) (v : Word) : (s.setStb v).configEff = s.configEff := rfl
@[simp] theorem State.setStb_vpEff (s : State) (v : Word) : (s.setStb v).vpEff = s.vpEff := rfl
@[simp] theorem State.setStb_recent (s : State) (v : Word) : (s.setStb v).recent = s.recent := rfl
@[simp] theorem State.setStb_ended (s : State) (v : Word) : (s.setStb v).ended = s.ended := rfl
@[simp] theorem State.setStb_foldable (s : State) (v : Word) : (s.setStb v).foldable = s.foldable := rfl
@[simp] theorem State.setStb_free (s : State) (v : Word) : (s.setStb v).free = s.free := rfl
@[simp] theorem State.setStb_busMap (s : State) (v : Word) : (s.setStb v).busMap = s.busMap := rfl
@[simp] theorem State.setStb_pins (s : State) (v : Word) : (s.setStb v).pins = s.pins := rfl
@[simp] theorem State.setStb_turns (s : State) (v : Word) : (s.setStb v).turns = s.turns := rfl
@[simp] theorem State.setFault_pc (s : State) (v : Word) : (s.setFault v).pc = s.pc := rfl
@[simp] theorem State.setFault_psw (s : State) (v : Word) : (s.setFault v).psw = s.psw := rfl
@[simp] theorem State.setFault_config (s : State) (v : Word) : (s.setFault v).config = s.config := rfl
@[simp] theorem State.setFault_isp (s : State) (v : Word) : (s.setFault v).isp = s.isp := rfl
@[simp] theorem State.setFault_msp (s : State) (v : Word) : (s.setFault v).msp = s.msp := rfl
@[simp] theorem State.setFault_sp (s : State) (v : Word) : (s.setFault v).sp = s.sp := rfl
@[simp] theorem State.setFault_shad (s : State) (v : Word) : (s.setFault v).shad = s.shad := rfl
@[simp] theorem State.setFault_vb (s : State) (v : Word) : (s.setFault v).vb = s.vb := rfl
@[simp] theorem State.setFault_stb (s : State) (v : Word) : (s.setFault v).stb = s.stb := rfl
@[simp] theorem State.setFault_fault (s : State) (v : Word) : (s.setFault v).fault = v := rfl
@[simp] theorem State.setFault_timer1 (s : State) (v : Word) : (s.setFault v).timer1 = s.timer1 := rfl
@[simp] theorem State.setFault_timer2 (s : State) (v : Word) : (s.setFault v).timer2 = s.timer2 := rfl
@[simp] theorem State.setFault_cache (s : State) (v : Word) : (s.setFault v).cache = s.cache := rfl
@[simp] theorem State.setFault_mem (s : State) (v : Word) : (s.setFault v).mem = s.mem := rfl
@[simp] theorem State.setFault_textTlb (s : State) (v : Word) : (s.setFault v).textTlb = s.textTlb := rfl
@[simp] theorem State.setFault_dataTlb (s : State) (v : Word) : (s.setFault v).dataTlb = s.dataTlb := rfl
@[simp] theorem State.setFault_textNpsr (s : State) (v : Word) : (s.setFault v).textNpsr = s.textNpsr := rfl
@[simp] theorem State.setFault_dataNpsr (s : State) (v : Word) : (s.setFault v).dataNpsr = s.dataNpsr := rfl
@[simp] theorem State.setFault_pfbStale (s : State) (v : Word) : (s.setFault v).pfbStale = s.pfbStale := rfl
@[simp] theorem State.setFault_icStale (s : State) (v : Word) : (s.setFault v).icStale = s.icStale := rfl
@[simp] theorem State.setFault_textMaps (s : State) (v : Word) : (s.setFault v).textMaps = s.textMaps := rfl
@[simp] theorem State.setFault_pfbQuads (s : State) (v : Word) : (s.setFault v).pfbQuads = s.pfbQuads := rfl
@[simp] theorem State.setFault_ahead (s : State) (v : Word) : (s.setFault v).ahead = s.ahead := rfl
@[simp] theorem State.setFault_t1Pending (s : State) (v : Word) : (s.setFault v).t1Pending = s.t1Pending := rfl
@[simp] theorem State.setFault_t2Pending (s : State) (v : Word) : (s.setFault v).t2Pending = s.t2Pending := rfl
@[simp] theorem State.setFault_nmiArmed (s : State) (v : Word) : (s.setFault v).nmiArmed = s.nmiArmed := rfl
@[simp] theorem State.setFault_tracePending (s : State) (v : Word) : (s.setFault v).tracePending = s.tracePending := rfl
@[simp] theorem State.setFault_writeFaults (s : State) (v : Word) : (s.setFault v).writeFaults = s.writeFaults := rfl
@[simp] theorem State.setFault_configEff (s : State) (v : Word) : (s.setFault v).configEff = s.configEff := rfl
@[simp] theorem State.setFault_vpEff (s : State) (v : Word) : (s.setFault v).vpEff = s.vpEff := rfl
@[simp] theorem State.setFault_recent (s : State) (v : Word) : (s.setFault v).recent = s.recent := rfl
@[simp] theorem State.setFault_ended (s : State) (v : Word) : (s.setFault v).ended = s.ended := rfl
@[simp] theorem State.setFault_foldable (s : State) (v : Word) : (s.setFault v).foldable = s.foldable := rfl
@[simp] theorem State.setFault_free (s : State) (v : Word) : (s.setFault v).free = s.free := rfl
@[simp] theorem State.setFault_busMap (s : State) (v : Word) : (s.setFault v).busMap = s.busMap := rfl
@[simp] theorem State.setFault_pins (s : State) (v : Word) : (s.setFault v).pins = s.pins := rfl
@[simp] theorem State.setFault_turns (s : State) (v : Word) : (s.setFault v).turns = s.turns := rfl
@[simp] theorem State.setTimer1_pc (s : State) (v : Word) : (s.setTimer1 v).pc = s.pc := rfl
@[simp] theorem State.setTimer1_psw (s : State) (v : Word) : (s.setTimer1 v).psw = s.psw := rfl
@[simp] theorem State.setTimer1_config (s : State) (v : Word) : (s.setTimer1 v).config = s.config := rfl
@[simp] theorem State.setTimer1_isp (s : State) (v : Word) : (s.setTimer1 v).isp = s.isp := rfl
@[simp] theorem State.setTimer1_msp (s : State) (v : Word) : (s.setTimer1 v).msp = s.msp := rfl
@[simp] theorem State.setTimer1_sp (s : State) (v : Word) : (s.setTimer1 v).sp = s.sp := rfl
@[simp] theorem State.setTimer1_shad (s : State) (v : Word) : (s.setTimer1 v).shad = s.shad := rfl
@[simp] theorem State.setTimer1_vb (s : State) (v : Word) : (s.setTimer1 v).vb = s.vb := rfl
@[simp] theorem State.setTimer1_stb (s : State) (v : Word) : (s.setTimer1 v).stb = s.stb := rfl
@[simp] theorem State.setTimer1_fault (s : State) (v : Word) : (s.setTimer1 v).fault = s.fault := rfl
@[simp] theorem State.setTimer1_timer1 (s : State) (v : Word) : (s.setTimer1 v).timer1 = v := rfl
@[simp] theorem State.setTimer1_timer2 (s : State) (v : Word) : (s.setTimer1 v).timer2 = s.timer2 := rfl
@[simp] theorem State.setTimer1_cache (s : State) (v : Word) : (s.setTimer1 v).cache = s.cache := rfl
@[simp] theorem State.setTimer1_mem (s : State) (v : Word) : (s.setTimer1 v).mem = s.mem := rfl
@[simp] theorem State.setTimer1_textTlb (s : State) (v : Word) : (s.setTimer1 v).textTlb = s.textTlb := rfl
@[simp] theorem State.setTimer1_dataTlb (s : State) (v : Word) : (s.setTimer1 v).dataTlb = s.dataTlb := rfl
@[simp] theorem State.setTimer1_textNpsr (s : State) (v : Word) : (s.setTimer1 v).textNpsr = s.textNpsr := rfl
@[simp] theorem State.setTimer1_dataNpsr (s : State) (v : Word) : (s.setTimer1 v).dataNpsr = s.dataNpsr := rfl
@[simp] theorem State.setTimer1_pfbStale (s : State) (v : Word) : (s.setTimer1 v).pfbStale = s.pfbStale := rfl
@[simp] theorem State.setTimer1_icStale (s : State) (v : Word) : (s.setTimer1 v).icStale = s.icStale := rfl
@[simp] theorem State.setTimer1_textMaps (s : State) (v : Word) : (s.setTimer1 v).textMaps = s.textMaps := rfl
@[simp] theorem State.setTimer1_pfbQuads (s : State) (v : Word) : (s.setTimer1 v).pfbQuads = s.pfbQuads := rfl
@[simp] theorem State.setTimer1_ahead (s : State) (v : Word) : (s.setTimer1 v).ahead = s.ahead := rfl
@[simp] theorem State.setTimer1_t1Pending (s : State) (v : Word) : (s.setTimer1 v).t1Pending = s.t1Pending := rfl
@[simp] theorem State.setTimer1_t2Pending (s : State) (v : Word) : (s.setTimer1 v).t2Pending = s.t2Pending := rfl
@[simp] theorem State.setTimer1_nmiArmed (s : State) (v : Word) : (s.setTimer1 v).nmiArmed = s.nmiArmed := rfl
@[simp] theorem State.setTimer1_tracePending (s : State) (v : Word) : (s.setTimer1 v).tracePending = s.tracePending := rfl
@[simp] theorem State.setTimer1_writeFaults (s : State) (v : Word) : (s.setTimer1 v).writeFaults = s.writeFaults := rfl
@[simp] theorem State.setTimer1_configEff (s : State) (v : Word) : (s.setTimer1 v).configEff = s.configEff := rfl
@[simp] theorem State.setTimer1_vpEff (s : State) (v : Word) : (s.setTimer1 v).vpEff = s.vpEff := rfl
@[simp] theorem State.setTimer1_recent (s : State) (v : Word) : (s.setTimer1 v).recent = s.recent := rfl
@[simp] theorem State.setTimer1_ended (s : State) (v : Word) : (s.setTimer1 v).ended = s.ended := rfl
@[simp] theorem State.setTimer1_foldable (s : State) (v : Word) : (s.setTimer1 v).foldable = s.foldable := rfl
@[simp] theorem State.setTimer1_free (s : State) (v : Word) : (s.setTimer1 v).free = s.free := rfl
@[simp] theorem State.setTimer1_busMap (s : State) (v : Word) : (s.setTimer1 v).busMap = s.busMap := rfl
@[simp] theorem State.setTimer1_pins (s : State) (v : Word) : (s.setTimer1 v).pins = s.pins := rfl
@[simp] theorem State.setTimer1_turns (s : State) (v : Word) : (s.setTimer1 v).turns = s.turns := rfl
@[simp] theorem State.setTimer2_pc (s : State) (v : Word) : (s.setTimer2 v).pc = s.pc := rfl
@[simp] theorem State.setTimer2_psw (s : State) (v : Word) : (s.setTimer2 v).psw = s.psw := rfl
@[simp] theorem State.setTimer2_config (s : State) (v : Word) : (s.setTimer2 v).config = s.config := rfl
@[simp] theorem State.setTimer2_isp (s : State) (v : Word) : (s.setTimer2 v).isp = s.isp := rfl
@[simp] theorem State.setTimer2_msp (s : State) (v : Word) : (s.setTimer2 v).msp = s.msp := rfl
@[simp] theorem State.setTimer2_sp (s : State) (v : Word) : (s.setTimer2 v).sp = s.sp := rfl
@[simp] theorem State.setTimer2_shad (s : State) (v : Word) : (s.setTimer2 v).shad = s.shad := rfl
@[simp] theorem State.setTimer2_vb (s : State) (v : Word) : (s.setTimer2 v).vb = s.vb := rfl
@[simp] theorem State.setTimer2_stb (s : State) (v : Word) : (s.setTimer2 v).stb = s.stb := rfl
@[simp] theorem State.setTimer2_fault (s : State) (v : Word) : (s.setTimer2 v).fault = s.fault := rfl
@[simp] theorem State.setTimer2_timer1 (s : State) (v : Word) : (s.setTimer2 v).timer1 = s.timer1 := rfl
@[simp] theorem State.setTimer2_timer2 (s : State) (v : Word) : (s.setTimer2 v).timer2 = v := rfl
@[simp] theorem State.setTimer2_cache (s : State) (v : Word) : (s.setTimer2 v).cache = s.cache := rfl
@[simp] theorem State.setTimer2_mem (s : State) (v : Word) : (s.setTimer2 v).mem = s.mem := rfl
@[simp] theorem State.setTimer2_textTlb (s : State) (v : Word) : (s.setTimer2 v).textTlb = s.textTlb := rfl
@[simp] theorem State.setTimer2_dataTlb (s : State) (v : Word) : (s.setTimer2 v).dataTlb = s.dataTlb := rfl
@[simp] theorem State.setTimer2_textNpsr (s : State) (v : Word) : (s.setTimer2 v).textNpsr = s.textNpsr := rfl
@[simp] theorem State.setTimer2_dataNpsr (s : State) (v : Word) : (s.setTimer2 v).dataNpsr = s.dataNpsr := rfl
@[simp] theorem State.setTimer2_pfbStale (s : State) (v : Word) : (s.setTimer2 v).pfbStale = s.pfbStale := rfl
@[simp] theorem State.setTimer2_icStale (s : State) (v : Word) : (s.setTimer2 v).icStale = s.icStale := rfl
@[simp] theorem State.setTimer2_textMaps (s : State) (v : Word) : (s.setTimer2 v).textMaps = s.textMaps := rfl
@[simp] theorem State.setTimer2_pfbQuads (s : State) (v : Word) : (s.setTimer2 v).pfbQuads = s.pfbQuads := rfl
@[simp] theorem State.setTimer2_ahead (s : State) (v : Word) : (s.setTimer2 v).ahead = s.ahead := rfl
@[simp] theorem State.setTimer2_t1Pending (s : State) (v : Word) : (s.setTimer2 v).t1Pending = s.t1Pending := rfl
@[simp] theorem State.setTimer2_t2Pending (s : State) (v : Word) : (s.setTimer2 v).t2Pending = s.t2Pending := rfl
@[simp] theorem State.setTimer2_nmiArmed (s : State) (v : Word) : (s.setTimer2 v).nmiArmed = s.nmiArmed := rfl
@[simp] theorem State.setTimer2_tracePending (s : State) (v : Word) : (s.setTimer2 v).tracePending = s.tracePending := rfl
@[simp] theorem State.setTimer2_writeFaults (s : State) (v : Word) : (s.setTimer2 v).writeFaults = s.writeFaults := rfl
@[simp] theorem State.setTimer2_configEff (s : State) (v : Word) : (s.setTimer2 v).configEff = s.configEff := rfl
@[simp] theorem State.setTimer2_vpEff (s : State) (v : Word) : (s.setTimer2 v).vpEff = s.vpEff := rfl
@[simp] theorem State.setTimer2_recent (s : State) (v : Word) : (s.setTimer2 v).recent = s.recent := rfl
@[simp] theorem State.setTimer2_ended (s : State) (v : Word) : (s.setTimer2 v).ended = s.ended := rfl
@[simp] theorem State.setTimer2_foldable (s : State) (v : Word) : (s.setTimer2 v).foldable = s.foldable := rfl
@[simp] theorem State.setTimer2_free (s : State) (v : Word) : (s.setTimer2 v).free = s.free := rfl
@[simp] theorem State.setTimer2_busMap (s : State) (v : Word) : (s.setTimer2 v).busMap = s.busMap := rfl
@[simp] theorem State.setTimer2_pins (s : State) (v : Word) : (s.setTimer2 v).pins = s.pins := rfl
@[simp] theorem State.setTimer2_turns (s : State) (v : Word) : (s.setTimer2 v).turns = s.turns := rfl
@[simp] theorem State.setCache_pc (s : State) (v : Vector Word 64) : (s.setCache v).pc = s.pc := rfl
@[simp] theorem State.setCache_psw (s : State) (v : Vector Word 64) : (s.setCache v).psw = s.psw := rfl
@[simp] theorem State.setCache_config (s : State) (v : Vector Word 64) : (s.setCache v).config = s.config := rfl
@[simp] theorem State.setCache_isp (s : State) (v : Vector Word 64) : (s.setCache v).isp = s.isp := rfl
@[simp] theorem State.setCache_msp (s : State) (v : Vector Word 64) : (s.setCache v).msp = s.msp := rfl
@[simp] theorem State.setCache_sp (s : State) (v : Vector Word 64) : (s.setCache v).sp = s.sp := rfl
@[simp] theorem State.setCache_shad (s : State) (v : Vector Word 64) : (s.setCache v).shad = s.shad := rfl
@[simp] theorem State.setCache_vb (s : State) (v : Vector Word 64) : (s.setCache v).vb = s.vb := rfl
@[simp] theorem State.setCache_stb (s : State) (v : Vector Word 64) : (s.setCache v).stb = s.stb := rfl
@[simp] theorem State.setCache_fault (s : State) (v : Vector Word 64) : (s.setCache v).fault = s.fault := rfl
@[simp] theorem State.setCache_timer1 (s : State) (v : Vector Word 64) : (s.setCache v).timer1 = s.timer1 := rfl
@[simp] theorem State.setCache_timer2 (s : State) (v : Vector Word 64) : (s.setCache v).timer2 = s.timer2 := rfl
@[simp] theorem State.setCache_cache (s : State) (v : Vector Word 64) : (s.setCache v).cache = v := rfl
@[simp] theorem State.setCache_mem (s : State) (v : Vector Word 64) : (s.setCache v).mem = s.mem := rfl
@[simp] theorem State.setCache_textTlb (s : State) (v : Vector Word 64) : (s.setCache v).textTlb = s.textTlb := rfl
@[simp] theorem State.setCache_dataTlb (s : State) (v : Vector Word 64) : (s.setCache v).dataTlb = s.dataTlb := rfl
@[simp] theorem State.setCache_textNpsr (s : State) (v : Vector Word 64) : (s.setCache v).textNpsr = s.textNpsr := rfl
@[simp] theorem State.setCache_dataNpsr (s : State) (v : Vector Word 64) : (s.setCache v).dataNpsr = s.dataNpsr := rfl
@[simp] theorem State.setCache_pfbStale (s : State) (v : Vector Word 64) : (s.setCache v).pfbStale = s.pfbStale := rfl
@[simp] theorem State.setCache_icStale (s : State) (v : Vector Word 64) : (s.setCache v).icStale = s.icStale := rfl
@[simp] theorem State.setCache_textMaps (s : State) (v : Vector Word 64) : (s.setCache v).textMaps = s.textMaps := rfl
@[simp] theorem State.setCache_pfbQuads (s : State) (v : Vector Word 64) : (s.setCache v).pfbQuads = s.pfbQuads := rfl
@[simp] theorem State.setCache_ahead (s : State) (v : Vector Word 64) : (s.setCache v).ahead = s.ahead := rfl
@[simp] theorem State.setCache_t1Pending (s : State) (v : Vector Word 64) : (s.setCache v).t1Pending = s.t1Pending := rfl
@[simp] theorem State.setCache_t2Pending (s : State) (v : Vector Word 64) : (s.setCache v).t2Pending = s.t2Pending := rfl
@[simp] theorem State.setCache_nmiArmed (s : State) (v : Vector Word 64) : (s.setCache v).nmiArmed = s.nmiArmed := rfl
@[simp] theorem State.setCache_tracePending (s : State) (v : Vector Word 64) : (s.setCache v).tracePending = s.tracePending := rfl
@[simp] theorem State.setCache_writeFaults (s : State) (v : Vector Word 64) : (s.setCache v).writeFaults = s.writeFaults := rfl
@[simp] theorem State.setCache_configEff (s : State) (v : Vector Word 64) : (s.setCache v).configEff = s.configEff := rfl
@[simp] theorem State.setCache_vpEff (s : State) (v : Vector Word 64) : (s.setCache v).vpEff = s.vpEff := rfl
@[simp] theorem State.setCache_recent (s : State) (v : Vector Word 64) : (s.setCache v).recent = s.recent := rfl
@[simp] theorem State.setCache_ended (s : State) (v : Vector Word 64) : (s.setCache v).ended = s.ended := rfl
@[simp] theorem State.setCache_foldable (s : State) (v : Vector Word 64) : (s.setCache v).foldable = s.foldable := rfl
@[simp] theorem State.setCache_free (s : State) (v : Vector Word 64) : (s.setCache v).free = s.free := rfl
@[simp] theorem State.setCache_busMap (s : State) (v : Vector Word 64) : (s.setCache v).busMap = s.busMap := rfl
@[simp] theorem State.setCache_pins (s : State) (v : Vector Word 64) : (s.setCache v).pins = s.pins := rfl
@[simp] theorem State.setCache_turns (s : State) (v : Vector Word 64) : (s.setCache v).turns = s.turns := rfl
@[simp] theorem State.setMem_pc (s : State) (v : List Host.Cell) : (s.setMem v).pc = s.pc := rfl
@[simp] theorem State.setMem_psw (s : State) (v : List Host.Cell) : (s.setMem v).psw = s.psw := rfl
@[simp] theorem State.setMem_config (s : State) (v : List Host.Cell) : (s.setMem v).config = s.config := rfl
@[simp] theorem State.setMem_isp (s : State) (v : List Host.Cell) : (s.setMem v).isp = s.isp := rfl
@[simp] theorem State.setMem_msp (s : State) (v : List Host.Cell) : (s.setMem v).msp = s.msp := rfl
@[simp] theorem State.setMem_sp (s : State) (v : List Host.Cell) : (s.setMem v).sp = s.sp := rfl
@[simp] theorem State.setMem_shad (s : State) (v : List Host.Cell) : (s.setMem v).shad = s.shad := rfl
@[simp] theorem State.setMem_vb (s : State) (v : List Host.Cell) : (s.setMem v).vb = s.vb := rfl
@[simp] theorem State.setMem_stb (s : State) (v : List Host.Cell) : (s.setMem v).stb = s.stb := rfl
@[simp] theorem State.setMem_fault (s : State) (v : List Host.Cell) : (s.setMem v).fault = s.fault := rfl
@[simp] theorem State.setMem_timer1 (s : State) (v : List Host.Cell) : (s.setMem v).timer1 = s.timer1 := rfl
@[simp] theorem State.setMem_timer2 (s : State) (v : List Host.Cell) : (s.setMem v).timer2 = s.timer2 := rfl
@[simp] theorem State.setMem_cache (s : State) (v : List Host.Cell) : (s.setMem v).cache = s.cache := rfl
@[simp] theorem State.setMem_mem (s : State) (v : List Host.Cell) : (s.setMem v).mem = v := rfl
@[simp] theorem State.setMem_textTlb (s : State) (v : List Host.Cell) : (s.setMem v).textTlb = s.textTlb := rfl
@[simp] theorem State.setMem_dataTlb (s : State) (v : List Host.Cell) : (s.setMem v).dataTlb = s.dataTlb := rfl
@[simp] theorem State.setMem_textNpsr (s : State) (v : List Host.Cell) : (s.setMem v).textNpsr = s.textNpsr := rfl
@[simp] theorem State.setMem_dataNpsr (s : State) (v : List Host.Cell) : (s.setMem v).dataNpsr = s.dataNpsr := rfl
@[simp] theorem State.setMem_pfbStale (s : State) (v : List Host.Cell) : (s.setMem v).pfbStale = s.pfbStale := rfl
@[simp] theorem State.setMem_icStale (s : State) (v : List Host.Cell) : (s.setMem v).icStale = s.icStale := rfl
@[simp] theorem State.setMem_textMaps (s : State) (v : List Host.Cell) : (s.setMem v).textMaps = s.textMaps := rfl
@[simp] theorem State.setMem_pfbQuads (s : State) (v : List Host.Cell) : (s.setMem v).pfbQuads = s.pfbQuads := rfl
@[simp] theorem State.setMem_ahead (s : State) (v : List Host.Cell) : (s.setMem v).ahead = s.ahead := rfl
@[simp] theorem State.setMem_t1Pending (s : State) (v : List Host.Cell) : (s.setMem v).t1Pending = s.t1Pending := rfl
@[simp] theorem State.setMem_t2Pending (s : State) (v : List Host.Cell) : (s.setMem v).t2Pending = s.t2Pending := rfl
@[simp] theorem State.setMem_nmiArmed (s : State) (v : List Host.Cell) : (s.setMem v).nmiArmed = s.nmiArmed := rfl
@[simp] theorem State.setMem_tracePending (s : State) (v : List Host.Cell) : (s.setMem v).tracePending = s.tracePending := rfl
@[simp] theorem State.setMem_writeFaults (s : State) (v : List Host.Cell) : (s.setMem v).writeFaults = s.writeFaults := rfl
@[simp] theorem State.setMem_configEff (s : State) (v : List Host.Cell) : (s.setMem v).configEff = s.configEff := rfl
@[simp] theorem State.setMem_vpEff (s : State) (v : List Host.Cell) : (s.setMem v).vpEff = s.vpEff := rfl
@[simp] theorem State.setMem_recent (s : State) (v : List Host.Cell) : (s.setMem v).recent = s.recent := rfl
@[simp] theorem State.setMem_ended (s : State) (v : List Host.Cell) : (s.setMem v).ended = s.ended := rfl
@[simp] theorem State.setMem_foldable (s : State) (v : List Host.Cell) : (s.setMem v).foldable = s.foldable := rfl
@[simp] theorem State.setMem_free (s : State) (v : List Host.Cell) : (s.setMem v).free = s.free := rfl
@[simp] theorem State.setMem_busMap (s : State) (v : List Host.Cell) : (s.setMem v).busMap = s.busMap := rfl
@[simp] theorem State.setMem_pins (s : State) (v : List Host.Cell) : (s.setMem v).pins = s.pins := rfl
@[simp] theorem State.setMem_turns (s : State) (v : List Host.Cell) : (s.setMem v).turns = s.turns := rfl
@[simp] theorem State.setTextTlb_pc (s : State) (v : List TlbEntry) : (s.setTextTlb v).pc = s.pc := rfl
@[simp] theorem State.setTextTlb_psw (s : State) (v : List TlbEntry) : (s.setTextTlb v).psw = s.psw := rfl
@[simp] theorem State.setTextTlb_config (s : State) (v : List TlbEntry) : (s.setTextTlb v).config = s.config := rfl
@[simp] theorem State.setTextTlb_isp (s : State) (v : List TlbEntry) : (s.setTextTlb v).isp = s.isp := rfl
@[simp] theorem State.setTextTlb_msp (s : State) (v : List TlbEntry) : (s.setTextTlb v).msp = s.msp := rfl
@[simp] theorem State.setTextTlb_sp (s : State) (v : List TlbEntry) : (s.setTextTlb v).sp = s.sp := rfl
@[simp] theorem State.setTextTlb_shad (s : State) (v : List TlbEntry) : (s.setTextTlb v).shad = s.shad := rfl
@[simp] theorem State.setTextTlb_vb (s : State) (v : List TlbEntry) : (s.setTextTlb v).vb = s.vb := rfl
@[simp] theorem State.setTextTlb_stb (s : State) (v : List TlbEntry) : (s.setTextTlb v).stb = s.stb := rfl
@[simp] theorem State.setTextTlb_fault (s : State) (v : List TlbEntry) : (s.setTextTlb v).fault = s.fault := rfl
@[simp] theorem State.setTextTlb_timer1 (s : State) (v : List TlbEntry) : (s.setTextTlb v).timer1 = s.timer1 := rfl
@[simp] theorem State.setTextTlb_timer2 (s : State) (v : List TlbEntry) : (s.setTextTlb v).timer2 = s.timer2 := rfl
@[simp] theorem State.setTextTlb_cache (s : State) (v : List TlbEntry) : (s.setTextTlb v).cache = s.cache := rfl
@[simp] theorem State.setTextTlb_mem (s : State) (v : List TlbEntry) : (s.setTextTlb v).mem = s.mem := rfl
@[simp] theorem State.setTextTlb_textTlb (s : State) (v : List TlbEntry) : (s.setTextTlb v).textTlb = v := rfl
@[simp] theorem State.setTextTlb_dataTlb (s : State) (v : List TlbEntry) : (s.setTextTlb v).dataTlb = s.dataTlb := rfl
@[simp] theorem State.setTextTlb_textNpsr (s : State) (v : List TlbEntry) : (s.setTextTlb v).textNpsr = s.textNpsr := rfl
@[simp] theorem State.setTextTlb_dataNpsr (s : State) (v : List TlbEntry) : (s.setTextTlb v).dataNpsr = s.dataNpsr := rfl
@[simp] theorem State.setTextTlb_pfbStale (s : State) (v : List TlbEntry) : (s.setTextTlb v).pfbStale = s.pfbStale := rfl
@[simp] theorem State.setTextTlb_icStale (s : State) (v : List TlbEntry) : (s.setTextTlb v).icStale = s.icStale := rfl
@[simp] theorem State.setTextTlb_textMaps (s : State) (v : List TlbEntry) : (s.setTextTlb v).textMaps = s.textMaps := rfl
@[simp] theorem State.setTextTlb_pfbQuads (s : State) (v : List TlbEntry) : (s.setTextTlb v).pfbQuads = s.pfbQuads := rfl
@[simp] theorem State.setTextTlb_ahead (s : State) (v : List TlbEntry) : (s.setTextTlb v).ahead = s.ahead := rfl
@[simp] theorem State.setTextTlb_t1Pending (s : State) (v : List TlbEntry) : (s.setTextTlb v).t1Pending = s.t1Pending := rfl
@[simp] theorem State.setTextTlb_t2Pending (s : State) (v : List TlbEntry) : (s.setTextTlb v).t2Pending = s.t2Pending := rfl
@[simp] theorem State.setTextTlb_nmiArmed (s : State) (v : List TlbEntry) : (s.setTextTlb v).nmiArmed = s.nmiArmed := rfl
@[simp] theorem State.setTextTlb_tracePending (s : State) (v : List TlbEntry) : (s.setTextTlb v).tracePending = s.tracePending := rfl
@[simp] theorem State.setTextTlb_writeFaults (s : State) (v : List TlbEntry) : (s.setTextTlb v).writeFaults = s.writeFaults := rfl
@[simp] theorem State.setTextTlb_configEff (s : State) (v : List TlbEntry) : (s.setTextTlb v).configEff = s.configEff := rfl
@[simp] theorem State.setTextTlb_vpEff (s : State) (v : List TlbEntry) : (s.setTextTlb v).vpEff = s.vpEff := rfl
@[simp] theorem State.setTextTlb_recent (s : State) (v : List TlbEntry) : (s.setTextTlb v).recent = s.recent := rfl
@[simp] theorem State.setTextTlb_ended (s : State) (v : List TlbEntry) : (s.setTextTlb v).ended = s.ended := rfl
@[simp] theorem State.setTextTlb_foldable (s : State) (v : List TlbEntry) : (s.setTextTlb v).foldable = s.foldable := rfl
@[simp] theorem State.setTextTlb_free (s : State) (v : List TlbEntry) : (s.setTextTlb v).free = s.free := rfl
@[simp] theorem State.setTextTlb_busMap (s : State) (v : List TlbEntry) : (s.setTextTlb v).busMap = s.busMap := rfl
@[simp] theorem State.setTextTlb_pins (s : State) (v : List TlbEntry) : (s.setTextTlb v).pins = s.pins := rfl
@[simp] theorem State.setTextTlb_turns (s : State) (v : List TlbEntry) : (s.setTextTlb v).turns = s.turns := rfl
@[simp] theorem State.setDataTlb_pc (s : State) (v : List TlbEntry) : (s.setDataTlb v).pc = s.pc := rfl
@[simp] theorem State.setDataTlb_psw (s : State) (v : List TlbEntry) : (s.setDataTlb v).psw = s.psw := rfl
@[simp] theorem State.setDataTlb_config (s : State) (v : List TlbEntry) : (s.setDataTlb v).config = s.config := rfl
@[simp] theorem State.setDataTlb_isp (s : State) (v : List TlbEntry) : (s.setDataTlb v).isp = s.isp := rfl
@[simp] theorem State.setDataTlb_msp (s : State) (v : List TlbEntry) : (s.setDataTlb v).msp = s.msp := rfl
@[simp] theorem State.setDataTlb_sp (s : State) (v : List TlbEntry) : (s.setDataTlb v).sp = s.sp := rfl
@[simp] theorem State.setDataTlb_shad (s : State) (v : List TlbEntry) : (s.setDataTlb v).shad = s.shad := rfl
@[simp] theorem State.setDataTlb_vb (s : State) (v : List TlbEntry) : (s.setDataTlb v).vb = s.vb := rfl
@[simp] theorem State.setDataTlb_stb (s : State) (v : List TlbEntry) : (s.setDataTlb v).stb = s.stb := rfl
@[simp] theorem State.setDataTlb_fault (s : State) (v : List TlbEntry) : (s.setDataTlb v).fault = s.fault := rfl
@[simp] theorem State.setDataTlb_timer1 (s : State) (v : List TlbEntry) : (s.setDataTlb v).timer1 = s.timer1 := rfl
@[simp] theorem State.setDataTlb_timer2 (s : State) (v : List TlbEntry) : (s.setDataTlb v).timer2 = s.timer2 := rfl
@[simp] theorem State.setDataTlb_cache (s : State) (v : List TlbEntry) : (s.setDataTlb v).cache = s.cache := rfl
@[simp] theorem State.setDataTlb_mem (s : State) (v : List TlbEntry) : (s.setDataTlb v).mem = s.mem := rfl
@[simp] theorem State.setDataTlb_textTlb (s : State) (v : List TlbEntry) : (s.setDataTlb v).textTlb = s.textTlb := rfl
@[simp] theorem State.setDataTlb_dataTlb (s : State) (v : List TlbEntry) : (s.setDataTlb v).dataTlb = v := rfl
@[simp] theorem State.setDataTlb_textNpsr (s : State) (v : List TlbEntry) : (s.setDataTlb v).textNpsr = s.textNpsr := rfl
@[simp] theorem State.setDataTlb_dataNpsr (s : State) (v : List TlbEntry) : (s.setDataTlb v).dataNpsr = s.dataNpsr := rfl
@[simp] theorem State.setDataTlb_pfbStale (s : State) (v : List TlbEntry) : (s.setDataTlb v).pfbStale = s.pfbStale := rfl
@[simp] theorem State.setDataTlb_icStale (s : State) (v : List TlbEntry) : (s.setDataTlb v).icStale = s.icStale := rfl
@[simp] theorem State.setDataTlb_textMaps (s : State) (v : List TlbEntry) : (s.setDataTlb v).textMaps = s.textMaps := rfl
@[simp] theorem State.setDataTlb_pfbQuads (s : State) (v : List TlbEntry) : (s.setDataTlb v).pfbQuads = s.pfbQuads := rfl
@[simp] theorem State.setDataTlb_ahead (s : State) (v : List TlbEntry) : (s.setDataTlb v).ahead = s.ahead := rfl
@[simp] theorem State.setDataTlb_t1Pending (s : State) (v : List TlbEntry) : (s.setDataTlb v).t1Pending = s.t1Pending := rfl
@[simp] theorem State.setDataTlb_t2Pending (s : State) (v : List TlbEntry) : (s.setDataTlb v).t2Pending = s.t2Pending := rfl
@[simp] theorem State.setDataTlb_nmiArmed (s : State) (v : List TlbEntry) : (s.setDataTlb v).nmiArmed = s.nmiArmed := rfl
@[simp] theorem State.setDataTlb_tracePending (s : State) (v : List TlbEntry) : (s.setDataTlb v).tracePending = s.tracePending := rfl
@[simp] theorem State.setDataTlb_writeFaults (s : State) (v : List TlbEntry) : (s.setDataTlb v).writeFaults = s.writeFaults := rfl
@[simp] theorem State.setDataTlb_configEff (s : State) (v : List TlbEntry) : (s.setDataTlb v).configEff = s.configEff := rfl
@[simp] theorem State.setDataTlb_vpEff (s : State) (v : List TlbEntry) : (s.setDataTlb v).vpEff = s.vpEff := rfl
@[simp] theorem State.setDataTlb_recent (s : State) (v : List TlbEntry) : (s.setDataTlb v).recent = s.recent := rfl
@[simp] theorem State.setDataTlb_ended (s : State) (v : List TlbEntry) : (s.setDataTlb v).ended = s.ended := rfl
@[simp] theorem State.setDataTlb_foldable (s : State) (v : List TlbEntry) : (s.setDataTlb v).foldable = s.foldable := rfl
@[simp] theorem State.setDataTlb_free (s : State) (v : List TlbEntry) : (s.setDataTlb v).free = s.free := rfl
@[simp] theorem State.setDataTlb_busMap (s : State) (v : List TlbEntry) : (s.setDataTlb v).busMap = s.busMap := rfl
@[simp] theorem State.setDataTlb_pins (s : State) (v : List TlbEntry) : (s.setDataTlb v).pins = s.pins := rfl
@[simp] theorem State.setDataTlb_turns (s : State) (v : List TlbEntry) : (s.setDataTlb v).turns = s.turns := rfl
@[simp] theorem State.setTextNpsr_pc (s : State) (v : Option Npsr) : (s.setTextNpsr v).pc = s.pc := rfl
@[simp] theorem State.setTextNpsr_psw (s : State) (v : Option Npsr) : (s.setTextNpsr v).psw = s.psw := rfl
@[simp] theorem State.setTextNpsr_config (s : State) (v : Option Npsr) : (s.setTextNpsr v).config = s.config := rfl
@[simp] theorem State.setTextNpsr_isp (s : State) (v : Option Npsr) : (s.setTextNpsr v).isp = s.isp := rfl
@[simp] theorem State.setTextNpsr_msp (s : State) (v : Option Npsr) : (s.setTextNpsr v).msp = s.msp := rfl
@[simp] theorem State.setTextNpsr_sp (s : State) (v : Option Npsr) : (s.setTextNpsr v).sp = s.sp := rfl
@[simp] theorem State.setTextNpsr_shad (s : State) (v : Option Npsr) : (s.setTextNpsr v).shad = s.shad := rfl
@[simp] theorem State.setTextNpsr_vb (s : State) (v : Option Npsr) : (s.setTextNpsr v).vb = s.vb := rfl
@[simp] theorem State.setTextNpsr_stb (s : State) (v : Option Npsr) : (s.setTextNpsr v).stb = s.stb := rfl
@[simp] theorem State.setTextNpsr_fault (s : State) (v : Option Npsr) : (s.setTextNpsr v).fault = s.fault := rfl
@[simp] theorem State.setTextNpsr_timer1 (s : State) (v : Option Npsr) : (s.setTextNpsr v).timer1 = s.timer1 := rfl
@[simp] theorem State.setTextNpsr_timer2 (s : State) (v : Option Npsr) : (s.setTextNpsr v).timer2 = s.timer2 := rfl
@[simp] theorem State.setTextNpsr_cache (s : State) (v : Option Npsr) : (s.setTextNpsr v).cache = s.cache := rfl
@[simp] theorem State.setTextNpsr_mem (s : State) (v : Option Npsr) : (s.setTextNpsr v).mem = s.mem := rfl
@[simp] theorem State.setTextNpsr_textTlb (s : State) (v : Option Npsr) : (s.setTextNpsr v).textTlb = s.textTlb := rfl
@[simp] theorem State.setTextNpsr_dataTlb (s : State) (v : Option Npsr) : (s.setTextNpsr v).dataTlb = s.dataTlb := rfl
@[simp] theorem State.setTextNpsr_textNpsr (s : State) (v : Option Npsr) : (s.setTextNpsr v).textNpsr = v := rfl
@[simp] theorem State.setTextNpsr_dataNpsr (s : State) (v : Option Npsr) : (s.setTextNpsr v).dataNpsr = s.dataNpsr := rfl
@[simp] theorem State.setTextNpsr_pfbStale (s : State) (v : Option Npsr) : (s.setTextNpsr v).pfbStale = s.pfbStale := rfl
@[simp] theorem State.setTextNpsr_icStale (s : State) (v : Option Npsr) : (s.setTextNpsr v).icStale = s.icStale := rfl
@[simp] theorem State.setTextNpsr_textMaps (s : State) (v : Option Npsr) : (s.setTextNpsr v).textMaps = s.textMaps := rfl
@[simp] theorem State.setTextNpsr_pfbQuads (s : State) (v : Option Npsr) : (s.setTextNpsr v).pfbQuads = s.pfbQuads := rfl
@[simp] theorem State.setTextNpsr_ahead (s : State) (v : Option Npsr) : (s.setTextNpsr v).ahead = s.ahead := rfl
@[simp] theorem State.setTextNpsr_t1Pending (s : State) (v : Option Npsr) : (s.setTextNpsr v).t1Pending = s.t1Pending := rfl
@[simp] theorem State.setTextNpsr_t2Pending (s : State) (v : Option Npsr) : (s.setTextNpsr v).t2Pending = s.t2Pending := rfl
@[simp] theorem State.setTextNpsr_nmiArmed (s : State) (v : Option Npsr) : (s.setTextNpsr v).nmiArmed = s.nmiArmed := rfl
@[simp] theorem State.setTextNpsr_tracePending (s : State) (v : Option Npsr) : (s.setTextNpsr v).tracePending = s.tracePending := rfl
@[simp] theorem State.setTextNpsr_writeFaults (s : State) (v : Option Npsr) : (s.setTextNpsr v).writeFaults = s.writeFaults := rfl
@[simp] theorem State.setTextNpsr_configEff (s : State) (v : Option Npsr) : (s.setTextNpsr v).configEff = s.configEff := rfl
@[simp] theorem State.setTextNpsr_vpEff (s : State) (v : Option Npsr) : (s.setTextNpsr v).vpEff = s.vpEff := rfl
@[simp] theorem State.setTextNpsr_recent (s : State) (v : Option Npsr) : (s.setTextNpsr v).recent = s.recent := rfl
@[simp] theorem State.setTextNpsr_ended (s : State) (v : Option Npsr) : (s.setTextNpsr v).ended = s.ended := rfl
@[simp] theorem State.setTextNpsr_foldable (s : State) (v : Option Npsr) : (s.setTextNpsr v).foldable = s.foldable := rfl
@[simp] theorem State.setTextNpsr_free (s : State) (v : Option Npsr) : (s.setTextNpsr v).free = s.free := rfl
@[simp] theorem State.setTextNpsr_busMap (s : State) (v : Option Npsr) : (s.setTextNpsr v).busMap = s.busMap := rfl
@[simp] theorem State.setTextNpsr_pins (s : State) (v : Option Npsr) : (s.setTextNpsr v).pins = s.pins := rfl
@[simp] theorem State.setTextNpsr_turns (s : State) (v : Option Npsr) : (s.setTextNpsr v).turns = s.turns := rfl
@[simp] theorem State.setDataNpsr_pc (s : State) (v : Option Npsr) : (s.setDataNpsr v).pc = s.pc := rfl
@[simp] theorem State.setDataNpsr_psw (s : State) (v : Option Npsr) : (s.setDataNpsr v).psw = s.psw := rfl
@[simp] theorem State.setDataNpsr_config (s : State) (v : Option Npsr) : (s.setDataNpsr v).config = s.config := rfl
@[simp] theorem State.setDataNpsr_isp (s : State) (v : Option Npsr) : (s.setDataNpsr v).isp = s.isp := rfl
@[simp] theorem State.setDataNpsr_msp (s : State) (v : Option Npsr) : (s.setDataNpsr v).msp = s.msp := rfl
@[simp] theorem State.setDataNpsr_sp (s : State) (v : Option Npsr) : (s.setDataNpsr v).sp = s.sp := rfl
@[simp] theorem State.setDataNpsr_shad (s : State) (v : Option Npsr) : (s.setDataNpsr v).shad = s.shad := rfl
@[simp] theorem State.setDataNpsr_vb (s : State) (v : Option Npsr) : (s.setDataNpsr v).vb = s.vb := rfl
@[simp] theorem State.setDataNpsr_stb (s : State) (v : Option Npsr) : (s.setDataNpsr v).stb = s.stb := rfl
@[simp] theorem State.setDataNpsr_fault (s : State) (v : Option Npsr) : (s.setDataNpsr v).fault = s.fault := rfl
@[simp] theorem State.setDataNpsr_timer1 (s : State) (v : Option Npsr) : (s.setDataNpsr v).timer1 = s.timer1 := rfl
@[simp] theorem State.setDataNpsr_timer2 (s : State) (v : Option Npsr) : (s.setDataNpsr v).timer2 = s.timer2 := rfl
@[simp] theorem State.setDataNpsr_cache (s : State) (v : Option Npsr) : (s.setDataNpsr v).cache = s.cache := rfl
@[simp] theorem State.setDataNpsr_mem (s : State) (v : Option Npsr) : (s.setDataNpsr v).mem = s.mem := rfl
@[simp] theorem State.setDataNpsr_textTlb (s : State) (v : Option Npsr) : (s.setDataNpsr v).textTlb = s.textTlb := rfl
@[simp] theorem State.setDataNpsr_dataTlb (s : State) (v : Option Npsr) : (s.setDataNpsr v).dataTlb = s.dataTlb := rfl
@[simp] theorem State.setDataNpsr_textNpsr (s : State) (v : Option Npsr) : (s.setDataNpsr v).textNpsr = s.textNpsr := rfl
@[simp] theorem State.setDataNpsr_dataNpsr (s : State) (v : Option Npsr) : (s.setDataNpsr v).dataNpsr = v := rfl
@[simp] theorem State.setDataNpsr_pfbStale (s : State) (v : Option Npsr) : (s.setDataNpsr v).pfbStale = s.pfbStale := rfl
@[simp] theorem State.setDataNpsr_icStale (s : State) (v : Option Npsr) : (s.setDataNpsr v).icStale = s.icStale := rfl
@[simp] theorem State.setDataNpsr_textMaps (s : State) (v : Option Npsr) : (s.setDataNpsr v).textMaps = s.textMaps := rfl
@[simp] theorem State.setDataNpsr_pfbQuads (s : State) (v : Option Npsr) : (s.setDataNpsr v).pfbQuads = s.pfbQuads := rfl
@[simp] theorem State.setDataNpsr_ahead (s : State) (v : Option Npsr) : (s.setDataNpsr v).ahead = s.ahead := rfl
@[simp] theorem State.setDataNpsr_t1Pending (s : State) (v : Option Npsr) : (s.setDataNpsr v).t1Pending = s.t1Pending := rfl
@[simp] theorem State.setDataNpsr_t2Pending (s : State) (v : Option Npsr) : (s.setDataNpsr v).t2Pending = s.t2Pending := rfl
@[simp] theorem State.setDataNpsr_nmiArmed (s : State) (v : Option Npsr) : (s.setDataNpsr v).nmiArmed = s.nmiArmed := rfl
@[simp] theorem State.setDataNpsr_tracePending (s : State) (v : Option Npsr) : (s.setDataNpsr v).tracePending = s.tracePending := rfl
@[simp] theorem State.setDataNpsr_writeFaults (s : State) (v : Option Npsr) : (s.setDataNpsr v).writeFaults = s.writeFaults := rfl
@[simp] theorem State.setDataNpsr_configEff (s : State) (v : Option Npsr) : (s.setDataNpsr v).configEff = s.configEff := rfl
@[simp] theorem State.setDataNpsr_vpEff (s : State) (v : Option Npsr) : (s.setDataNpsr v).vpEff = s.vpEff := rfl
@[simp] theorem State.setDataNpsr_recent (s : State) (v : Option Npsr) : (s.setDataNpsr v).recent = s.recent := rfl
@[simp] theorem State.setDataNpsr_ended (s : State) (v : Option Npsr) : (s.setDataNpsr v).ended = s.ended := rfl
@[simp] theorem State.setDataNpsr_foldable (s : State) (v : Option Npsr) : (s.setDataNpsr v).foldable = s.foldable := rfl
@[simp] theorem State.setDataNpsr_free (s : State) (v : Option Npsr) : (s.setDataNpsr v).free = s.free := rfl
@[simp] theorem State.setDataNpsr_busMap (s : State) (v : Option Npsr) : (s.setDataNpsr v).busMap = s.busMap := rfl
@[simp] theorem State.setDataNpsr_pins (s : State) (v : Option Npsr) : (s.setDataNpsr v).pins = s.pins := rfl
@[simp] theorem State.setDataNpsr_turns (s : State) (v : Option Npsr) : (s.setDataNpsr v).turns = s.turns := rfl
@[simp] theorem State.setPfbStale_pc (s : State) (v : List StaleParcel) : (s.setPfbStale v).pc = s.pc := rfl
@[simp] theorem State.setPfbStale_psw (s : State) (v : List StaleParcel) : (s.setPfbStale v).psw = s.psw := rfl
@[simp] theorem State.setPfbStale_config (s : State) (v : List StaleParcel) : (s.setPfbStale v).config = s.config := rfl
@[simp] theorem State.setPfbStale_isp (s : State) (v : List StaleParcel) : (s.setPfbStale v).isp = s.isp := rfl
@[simp] theorem State.setPfbStale_msp (s : State) (v : List StaleParcel) : (s.setPfbStale v).msp = s.msp := rfl
@[simp] theorem State.setPfbStale_sp (s : State) (v : List StaleParcel) : (s.setPfbStale v).sp = s.sp := rfl
@[simp] theorem State.setPfbStale_shad (s : State) (v : List StaleParcel) : (s.setPfbStale v).shad = s.shad := rfl
@[simp] theorem State.setPfbStale_vb (s : State) (v : List StaleParcel) : (s.setPfbStale v).vb = s.vb := rfl
@[simp] theorem State.setPfbStale_stb (s : State) (v : List StaleParcel) : (s.setPfbStale v).stb = s.stb := rfl
@[simp] theorem State.setPfbStale_fault (s : State) (v : List StaleParcel) : (s.setPfbStale v).fault = s.fault := rfl
@[simp] theorem State.setPfbStale_timer1 (s : State) (v : List StaleParcel) : (s.setPfbStale v).timer1 = s.timer1 := rfl
@[simp] theorem State.setPfbStale_timer2 (s : State) (v : List StaleParcel) : (s.setPfbStale v).timer2 = s.timer2 := rfl
@[simp] theorem State.setPfbStale_cache (s : State) (v : List StaleParcel) : (s.setPfbStale v).cache = s.cache := rfl
@[simp] theorem State.setPfbStale_mem (s : State) (v : List StaleParcel) : (s.setPfbStale v).mem = s.mem := rfl
@[simp] theorem State.setPfbStale_textTlb (s : State) (v : List StaleParcel) : (s.setPfbStale v).textTlb = s.textTlb := rfl
@[simp] theorem State.setPfbStale_dataTlb (s : State) (v : List StaleParcel) : (s.setPfbStale v).dataTlb = s.dataTlb := rfl
@[simp] theorem State.setPfbStale_textNpsr (s : State) (v : List StaleParcel) : (s.setPfbStale v).textNpsr = s.textNpsr := rfl
@[simp] theorem State.setPfbStale_dataNpsr (s : State) (v : List StaleParcel) : (s.setPfbStale v).dataNpsr = s.dataNpsr := rfl
@[simp] theorem State.setPfbStale_pfbStale (s : State) (v : List StaleParcel) : (s.setPfbStale v).pfbStale = v := rfl
@[simp] theorem State.setPfbStale_icStale (s : State) (v : List StaleParcel) : (s.setPfbStale v).icStale = s.icStale := rfl
@[simp] theorem State.setPfbStale_textMaps (s : State) (v : List StaleParcel) : (s.setPfbStale v).textMaps = s.textMaps := rfl
@[simp] theorem State.setPfbStale_pfbQuads (s : State) (v : List StaleParcel) : (s.setPfbStale v).pfbQuads = s.pfbQuads := rfl
@[simp] theorem State.setPfbStale_ahead (s : State) (v : List StaleParcel) : (s.setPfbStale v).ahead = s.ahead := rfl
@[simp] theorem State.setPfbStale_t1Pending (s : State) (v : List StaleParcel) : (s.setPfbStale v).t1Pending = s.t1Pending := rfl
@[simp] theorem State.setPfbStale_t2Pending (s : State) (v : List StaleParcel) : (s.setPfbStale v).t2Pending = s.t2Pending := rfl
@[simp] theorem State.setPfbStale_nmiArmed (s : State) (v : List StaleParcel) : (s.setPfbStale v).nmiArmed = s.nmiArmed := rfl
@[simp] theorem State.setPfbStale_tracePending (s : State) (v : List StaleParcel) : (s.setPfbStale v).tracePending = s.tracePending := rfl
@[simp] theorem State.setPfbStale_writeFaults (s : State) (v : List StaleParcel) : (s.setPfbStale v).writeFaults = s.writeFaults := rfl
@[simp] theorem State.setPfbStale_configEff (s : State) (v : List StaleParcel) : (s.setPfbStale v).configEff = s.configEff := rfl
@[simp] theorem State.setPfbStale_vpEff (s : State) (v : List StaleParcel) : (s.setPfbStale v).vpEff = s.vpEff := rfl
@[simp] theorem State.setPfbStale_recent (s : State) (v : List StaleParcel) : (s.setPfbStale v).recent = s.recent := rfl
@[simp] theorem State.setPfbStale_ended (s : State) (v : List StaleParcel) : (s.setPfbStale v).ended = s.ended := rfl
@[simp] theorem State.setPfbStale_foldable (s : State) (v : List StaleParcel) : (s.setPfbStale v).foldable = s.foldable := rfl
@[simp] theorem State.setPfbStale_free (s : State) (v : List StaleParcel) : (s.setPfbStale v).free = s.free := rfl
@[simp] theorem State.setPfbStale_busMap (s : State) (v : List StaleParcel) : (s.setPfbStale v).busMap = s.busMap := rfl
@[simp] theorem State.setPfbStale_pins (s : State) (v : List StaleParcel) : (s.setPfbStale v).pins = s.pins := rfl
@[simp] theorem State.setPfbStale_turns (s : State) (v : List StaleParcel) : (s.setPfbStale v).turns = s.turns := rfl
@[simp] theorem State.setIcStale_pc (s : State) (v : List StaleParcel) : (s.setIcStale v).pc = s.pc := rfl
@[simp] theorem State.setIcStale_psw (s : State) (v : List StaleParcel) : (s.setIcStale v).psw = s.psw := rfl
@[simp] theorem State.setIcStale_config (s : State) (v : List StaleParcel) : (s.setIcStale v).config = s.config := rfl
@[simp] theorem State.setIcStale_isp (s : State) (v : List StaleParcel) : (s.setIcStale v).isp = s.isp := rfl
@[simp] theorem State.setIcStale_msp (s : State) (v : List StaleParcel) : (s.setIcStale v).msp = s.msp := rfl
@[simp] theorem State.setIcStale_sp (s : State) (v : List StaleParcel) : (s.setIcStale v).sp = s.sp := rfl
@[simp] theorem State.setIcStale_shad (s : State) (v : List StaleParcel) : (s.setIcStale v).shad = s.shad := rfl
@[simp] theorem State.setIcStale_vb (s : State) (v : List StaleParcel) : (s.setIcStale v).vb = s.vb := rfl
@[simp] theorem State.setIcStale_stb (s : State) (v : List StaleParcel) : (s.setIcStale v).stb = s.stb := rfl
@[simp] theorem State.setIcStale_fault (s : State) (v : List StaleParcel) : (s.setIcStale v).fault = s.fault := rfl
@[simp] theorem State.setIcStale_timer1 (s : State) (v : List StaleParcel) : (s.setIcStale v).timer1 = s.timer1 := rfl
@[simp] theorem State.setIcStale_timer2 (s : State) (v : List StaleParcel) : (s.setIcStale v).timer2 = s.timer2 := rfl
@[simp] theorem State.setIcStale_cache (s : State) (v : List StaleParcel) : (s.setIcStale v).cache = s.cache := rfl
@[simp] theorem State.setIcStale_mem (s : State) (v : List StaleParcel) : (s.setIcStale v).mem = s.mem := rfl
@[simp] theorem State.setIcStale_textTlb (s : State) (v : List StaleParcel) : (s.setIcStale v).textTlb = s.textTlb := rfl
@[simp] theorem State.setIcStale_dataTlb (s : State) (v : List StaleParcel) : (s.setIcStale v).dataTlb = s.dataTlb := rfl
@[simp] theorem State.setIcStale_textNpsr (s : State) (v : List StaleParcel) : (s.setIcStale v).textNpsr = s.textNpsr := rfl
@[simp] theorem State.setIcStale_dataNpsr (s : State) (v : List StaleParcel) : (s.setIcStale v).dataNpsr = s.dataNpsr := rfl
@[simp] theorem State.setIcStale_pfbStale (s : State) (v : List StaleParcel) : (s.setIcStale v).pfbStale = s.pfbStale := rfl
@[simp] theorem State.setIcStale_icStale (s : State) (v : List StaleParcel) : (s.setIcStale v).icStale = v := rfl
@[simp] theorem State.setIcStale_textMaps (s : State) (v : List StaleParcel) : (s.setIcStale v).textMaps = s.textMaps := rfl
@[simp] theorem State.setIcStale_pfbQuads (s : State) (v : List StaleParcel) : (s.setIcStale v).pfbQuads = s.pfbQuads := rfl
@[simp] theorem State.setIcStale_ahead (s : State) (v : List StaleParcel) : (s.setIcStale v).ahead = s.ahead := rfl
@[simp] theorem State.setIcStale_t1Pending (s : State) (v : List StaleParcel) : (s.setIcStale v).t1Pending = s.t1Pending := rfl
@[simp] theorem State.setIcStale_t2Pending (s : State) (v : List StaleParcel) : (s.setIcStale v).t2Pending = s.t2Pending := rfl
@[simp] theorem State.setIcStale_nmiArmed (s : State) (v : List StaleParcel) : (s.setIcStale v).nmiArmed = s.nmiArmed := rfl
@[simp] theorem State.setIcStale_tracePending (s : State) (v : List StaleParcel) : (s.setIcStale v).tracePending = s.tracePending := rfl
@[simp] theorem State.setIcStale_writeFaults (s : State) (v : List StaleParcel) : (s.setIcStale v).writeFaults = s.writeFaults := rfl
@[simp] theorem State.setIcStale_configEff (s : State) (v : List StaleParcel) : (s.setIcStale v).configEff = s.configEff := rfl
@[simp] theorem State.setIcStale_vpEff (s : State) (v : List StaleParcel) : (s.setIcStale v).vpEff = s.vpEff := rfl
@[simp] theorem State.setIcStale_recent (s : State) (v : List StaleParcel) : (s.setIcStale v).recent = s.recent := rfl
@[simp] theorem State.setIcStale_ended (s : State) (v : List StaleParcel) : (s.setIcStale v).ended = s.ended := rfl
@[simp] theorem State.setIcStale_foldable (s : State) (v : List StaleParcel) : (s.setIcStale v).foldable = s.foldable := rfl
@[simp] theorem State.setIcStale_free (s : State) (v : List StaleParcel) : (s.setIcStale v).free = s.free := rfl
@[simp] theorem State.setIcStale_busMap (s : State) (v : List StaleParcel) : (s.setIcStale v).busMap = s.busMap := rfl
@[simp] theorem State.setIcStale_pins (s : State) (v : List StaleParcel) : (s.setIcStale v).pins = s.pins := rfl
@[simp] theorem State.setIcStale_turns (s : State) (v : List StaleParcel) : (s.setIcStale v).turns = s.turns := rfl
@[simp] theorem State.setTextMaps_pc (s : State) (v : List TextMap) : (s.setTextMaps v).pc = s.pc := rfl
@[simp] theorem State.setTextMaps_psw (s : State) (v : List TextMap) : (s.setTextMaps v).psw = s.psw := rfl
@[simp] theorem State.setTextMaps_config (s : State) (v : List TextMap) : (s.setTextMaps v).config = s.config := rfl
@[simp] theorem State.setTextMaps_isp (s : State) (v : List TextMap) : (s.setTextMaps v).isp = s.isp := rfl
@[simp] theorem State.setTextMaps_msp (s : State) (v : List TextMap) : (s.setTextMaps v).msp = s.msp := rfl
@[simp] theorem State.setTextMaps_sp (s : State) (v : List TextMap) : (s.setTextMaps v).sp = s.sp := rfl
@[simp] theorem State.setTextMaps_shad (s : State) (v : List TextMap) : (s.setTextMaps v).shad = s.shad := rfl
@[simp] theorem State.setTextMaps_vb (s : State) (v : List TextMap) : (s.setTextMaps v).vb = s.vb := rfl
@[simp] theorem State.setTextMaps_stb (s : State) (v : List TextMap) : (s.setTextMaps v).stb = s.stb := rfl
@[simp] theorem State.setTextMaps_fault (s : State) (v : List TextMap) : (s.setTextMaps v).fault = s.fault := rfl
@[simp] theorem State.setTextMaps_timer1 (s : State) (v : List TextMap) : (s.setTextMaps v).timer1 = s.timer1 := rfl
@[simp] theorem State.setTextMaps_timer2 (s : State) (v : List TextMap) : (s.setTextMaps v).timer2 = s.timer2 := rfl
@[simp] theorem State.setTextMaps_cache (s : State) (v : List TextMap) : (s.setTextMaps v).cache = s.cache := rfl
@[simp] theorem State.setTextMaps_mem (s : State) (v : List TextMap) : (s.setTextMaps v).mem = s.mem := rfl
@[simp] theorem State.setTextMaps_textTlb (s : State) (v : List TextMap) : (s.setTextMaps v).textTlb = s.textTlb := rfl
@[simp] theorem State.setTextMaps_dataTlb (s : State) (v : List TextMap) : (s.setTextMaps v).dataTlb = s.dataTlb := rfl
@[simp] theorem State.setTextMaps_textNpsr (s : State) (v : List TextMap) : (s.setTextMaps v).textNpsr = s.textNpsr := rfl
@[simp] theorem State.setTextMaps_dataNpsr (s : State) (v : List TextMap) : (s.setTextMaps v).dataNpsr = s.dataNpsr := rfl
@[simp] theorem State.setTextMaps_pfbStale (s : State) (v : List TextMap) : (s.setTextMaps v).pfbStale = s.pfbStale := rfl
@[simp] theorem State.setTextMaps_icStale (s : State) (v : List TextMap) : (s.setTextMaps v).icStale = s.icStale := rfl
@[simp] theorem State.setTextMaps_textMaps (s : State) (v : List TextMap) : (s.setTextMaps v).textMaps = v := rfl
@[simp] theorem State.setTextMaps_pfbQuads (s : State) (v : List TextMap) : (s.setTextMaps v).pfbQuads = s.pfbQuads := rfl
@[simp] theorem State.setTextMaps_ahead (s : State) (v : List TextMap) : (s.setTextMaps v).ahead = s.ahead := rfl
@[simp] theorem State.setTextMaps_t1Pending (s : State) (v : List TextMap) : (s.setTextMaps v).t1Pending = s.t1Pending := rfl
@[simp] theorem State.setTextMaps_t2Pending (s : State) (v : List TextMap) : (s.setTextMaps v).t2Pending = s.t2Pending := rfl
@[simp] theorem State.setTextMaps_nmiArmed (s : State) (v : List TextMap) : (s.setTextMaps v).nmiArmed = s.nmiArmed := rfl
@[simp] theorem State.setTextMaps_tracePending (s : State) (v : List TextMap) : (s.setTextMaps v).tracePending = s.tracePending := rfl
@[simp] theorem State.setTextMaps_writeFaults (s : State) (v : List TextMap) : (s.setTextMaps v).writeFaults = s.writeFaults := rfl
@[simp] theorem State.setTextMaps_configEff (s : State) (v : List TextMap) : (s.setTextMaps v).configEff = s.configEff := rfl
@[simp] theorem State.setTextMaps_vpEff (s : State) (v : List TextMap) : (s.setTextMaps v).vpEff = s.vpEff := rfl
@[simp] theorem State.setTextMaps_recent (s : State) (v : List TextMap) : (s.setTextMaps v).recent = s.recent := rfl
@[simp] theorem State.setTextMaps_ended (s : State) (v : List TextMap) : (s.setTextMaps v).ended = s.ended := rfl
@[simp] theorem State.setTextMaps_foldable (s : State) (v : List TextMap) : (s.setTextMaps v).foldable = s.foldable := rfl
@[simp] theorem State.setTextMaps_free (s : State) (v : List TextMap) : (s.setTextMaps v).free = s.free := rfl
@[simp] theorem State.setTextMaps_busMap (s : State) (v : List TextMap) : (s.setTextMaps v).busMap = s.busMap := rfl
@[simp] theorem State.setTextMaps_pins (s : State) (v : List TextMap) : (s.setTextMaps v).pins = s.pins := rfl
@[simp] theorem State.setTextMaps_turns (s : State) (v : List TextMap) : (s.setTextMaps v).turns = s.turns := rfl
@[simp] theorem State.setPfbQuads_pc (s : State) (v : List Word) : (s.setPfbQuads v).pc = s.pc := rfl
@[simp] theorem State.setPfbQuads_psw (s : State) (v : List Word) : (s.setPfbQuads v).psw = s.psw := rfl
@[simp] theorem State.setPfbQuads_config (s : State) (v : List Word) : (s.setPfbQuads v).config = s.config := rfl
@[simp] theorem State.setPfbQuads_isp (s : State) (v : List Word) : (s.setPfbQuads v).isp = s.isp := rfl
@[simp] theorem State.setPfbQuads_msp (s : State) (v : List Word) : (s.setPfbQuads v).msp = s.msp := rfl
@[simp] theorem State.setPfbQuads_sp (s : State) (v : List Word) : (s.setPfbQuads v).sp = s.sp := rfl
@[simp] theorem State.setPfbQuads_shad (s : State) (v : List Word) : (s.setPfbQuads v).shad = s.shad := rfl
@[simp] theorem State.setPfbQuads_vb (s : State) (v : List Word) : (s.setPfbQuads v).vb = s.vb := rfl
@[simp] theorem State.setPfbQuads_stb (s : State) (v : List Word) : (s.setPfbQuads v).stb = s.stb := rfl
@[simp] theorem State.setPfbQuads_fault (s : State) (v : List Word) : (s.setPfbQuads v).fault = s.fault := rfl
@[simp] theorem State.setPfbQuads_timer1 (s : State) (v : List Word) : (s.setPfbQuads v).timer1 = s.timer1 := rfl
@[simp] theorem State.setPfbQuads_timer2 (s : State) (v : List Word) : (s.setPfbQuads v).timer2 = s.timer2 := rfl
@[simp] theorem State.setPfbQuads_cache (s : State) (v : List Word) : (s.setPfbQuads v).cache = s.cache := rfl
@[simp] theorem State.setPfbQuads_mem (s : State) (v : List Word) : (s.setPfbQuads v).mem = s.mem := rfl
@[simp] theorem State.setPfbQuads_textTlb (s : State) (v : List Word) : (s.setPfbQuads v).textTlb = s.textTlb := rfl
@[simp] theorem State.setPfbQuads_dataTlb (s : State) (v : List Word) : (s.setPfbQuads v).dataTlb = s.dataTlb := rfl
@[simp] theorem State.setPfbQuads_textNpsr (s : State) (v : List Word) : (s.setPfbQuads v).textNpsr = s.textNpsr := rfl
@[simp] theorem State.setPfbQuads_dataNpsr (s : State) (v : List Word) : (s.setPfbQuads v).dataNpsr = s.dataNpsr := rfl
@[simp] theorem State.setPfbQuads_pfbStale (s : State) (v : List Word) : (s.setPfbQuads v).pfbStale = s.pfbStale := rfl
@[simp] theorem State.setPfbQuads_icStale (s : State) (v : List Word) : (s.setPfbQuads v).icStale = s.icStale := rfl
@[simp] theorem State.setPfbQuads_textMaps (s : State) (v : List Word) : (s.setPfbQuads v).textMaps = s.textMaps := rfl
@[simp] theorem State.setPfbQuads_pfbQuads (s : State) (v : List Word) : (s.setPfbQuads v).pfbQuads = v := rfl
@[simp] theorem State.setPfbQuads_ahead (s : State) (v : List Word) : (s.setPfbQuads v).ahead = s.ahead := rfl
@[simp] theorem State.setPfbQuads_t1Pending (s : State) (v : List Word) : (s.setPfbQuads v).t1Pending = s.t1Pending := rfl
@[simp] theorem State.setPfbQuads_t2Pending (s : State) (v : List Word) : (s.setPfbQuads v).t2Pending = s.t2Pending := rfl
@[simp] theorem State.setPfbQuads_nmiArmed (s : State) (v : List Word) : (s.setPfbQuads v).nmiArmed = s.nmiArmed := rfl
@[simp] theorem State.setPfbQuads_tracePending (s : State) (v : List Word) : (s.setPfbQuads v).tracePending = s.tracePending := rfl
@[simp] theorem State.setPfbQuads_writeFaults (s : State) (v : List Word) : (s.setPfbQuads v).writeFaults = s.writeFaults := rfl
@[simp] theorem State.setPfbQuads_configEff (s : State) (v : List Word) : (s.setPfbQuads v).configEff = s.configEff := rfl
@[simp] theorem State.setPfbQuads_vpEff (s : State) (v : List Word) : (s.setPfbQuads v).vpEff = s.vpEff := rfl
@[simp] theorem State.setPfbQuads_recent (s : State) (v : List Word) : (s.setPfbQuads v).recent = s.recent := rfl
@[simp] theorem State.setPfbQuads_ended (s : State) (v : List Word) : (s.setPfbQuads v).ended = s.ended := rfl
@[simp] theorem State.setPfbQuads_foldable (s : State) (v : List Word) : (s.setPfbQuads v).foldable = s.foldable := rfl
@[simp] theorem State.setPfbQuads_free (s : State) (v : List Word) : (s.setPfbQuads v).free = s.free := rfl
@[simp] theorem State.setPfbQuads_busMap (s : State) (v : List Word) : (s.setPfbQuads v).busMap = s.busMap := rfl
@[simp] theorem State.setPfbQuads_pins (s : State) (v : List Word) : (s.setPfbQuads v).pins = s.pins := rfl
@[simp] theorem State.setPfbQuads_turns (s : State) (v : List Word) : (s.setPfbQuads v).turns = s.turns := rfl
@[simp] theorem State.setAhead_pc (s : State) (v : Option Word) : (s.setAhead v).pc = s.pc := rfl
@[simp] theorem State.setAhead_psw (s : State) (v : Option Word) : (s.setAhead v).psw = s.psw := rfl
@[simp] theorem State.setAhead_config (s : State) (v : Option Word) : (s.setAhead v).config = s.config := rfl
@[simp] theorem State.setAhead_isp (s : State) (v : Option Word) : (s.setAhead v).isp = s.isp := rfl
@[simp] theorem State.setAhead_msp (s : State) (v : Option Word) : (s.setAhead v).msp = s.msp := rfl
@[simp] theorem State.setAhead_sp (s : State) (v : Option Word) : (s.setAhead v).sp = s.sp := rfl
@[simp] theorem State.setAhead_shad (s : State) (v : Option Word) : (s.setAhead v).shad = s.shad := rfl
@[simp] theorem State.setAhead_vb (s : State) (v : Option Word) : (s.setAhead v).vb = s.vb := rfl
@[simp] theorem State.setAhead_stb (s : State) (v : Option Word) : (s.setAhead v).stb = s.stb := rfl
@[simp] theorem State.setAhead_fault (s : State) (v : Option Word) : (s.setAhead v).fault = s.fault := rfl
@[simp] theorem State.setAhead_timer1 (s : State) (v : Option Word) : (s.setAhead v).timer1 = s.timer1 := rfl
@[simp] theorem State.setAhead_timer2 (s : State) (v : Option Word) : (s.setAhead v).timer2 = s.timer2 := rfl
@[simp] theorem State.setAhead_cache (s : State) (v : Option Word) : (s.setAhead v).cache = s.cache := rfl
@[simp] theorem State.setAhead_mem (s : State) (v : Option Word) : (s.setAhead v).mem = s.mem := rfl
@[simp] theorem State.setAhead_textTlb (s : State) (v : Option Word) : (s.setAhead v).textTlb = s.textTlb := rfl
@[simp] theorem State.setAhead_dataTlb (s : State) (v : Option Word) : (s.setAhead v).dataTlb = s.dataTlb := rfl
@[simp] theorem State.setAhead_textNpsr (s : State) (v : Option Word) : (s.setAhead v).textNpsr = s.textNpsr := rfl
@[simp] theorem State.setAhead_dataNpsr (s : State) (v : Option Word) : (s.setAhead v).dataNpsr = s.dataNpsr := rfl
@[simp] theorem State.setAhead_pfbStale (s : State) (v : Option Word) : (s.setAhead v).pfbStale = s.pfbStale := rfl
@[simp] theorem State.setAhead_icStale (s : State) (v : Option Word) : (s.setAhead v).icStale = s.icStale := rfl
@[simp] theorem State.setAhead_textMaps (s : State) (v : Option Word) : (s.setAhead v).textMaps = s.textMaps := rfl
@[simp] theorem State.setAhead_pfbQuads (s : State) (v : Option Word) : (s.setAhead v).pfbQuads = s.pfbQuads := rfl
@[simp] theorem State.setAhead_ahead (s : State) (v : Option Word) : (s.setAhead v).ahead = v := rfl
@[simp] theorem State.setAhead_t1Pending (s : State) (v : Option Word) : (s.setAhead v).t1Pending = s.t1Pending := rfl
@[simp] theorem State.setAhead_t2Pending (s : State) (v : Option Word) : (s.setAhead v).t2Pending = s.t2Pending := rfl
@[simp] theorem State.setAhead_nmiArmed (s : State) (v : Option Word) : (s.setAhead v).nmiArmed = s.nmiArmed := rfl
@[simp] theorem State.setAhead_tracePending (s : State) (v : Option Word) : (s.setAhead v).tracePending = s.tracePending := rfl
@[simp] theorem State.setAhead_writeFaults (s : State) (v : Option Word) : (s.setAhead v).writeFaults = s.writeFaults := rfl
@[simp] theorem State.setAhead_configEff (s : State) (v : Option Word) : (s.setAhead v).configEff = s.configEff := rfl
@[simp] theorem State.setAhead_vpEff (s : State) (v : Option Word) : (s.setAhead v).vpEff = s.vpEff := rfl
@[simp] theorem State.setAhead_recent (s : State) (v : Option Word) : (s.setAhead v).recent = s.recent := rfl
@[simp] theorem State.setAhead_ended (s : State) (v : Option Word) : (s.setAhead v).ended = s.ended := rfl
@[simp] theorem State.setAhead_foldable (s : State) (v : Option Word) : (s.setAhead v).foldable = s.foldable := rfl
@[simp] theorem State.setAhead_free (s : State) (v : Option Word) : (s.setAhead v).free = s.free := rfl
@[simp] theorem State.setAhead_busMap (s : State) (v : Option Word) : (s.setAhead v).busMap = s.busMap := rfl
@[simp] theorem State.setAhead_pins (s : State) (v : Option Word) : (s.setAhead v).pins = s.pins := rfl
@[simp] theorem State.setAhead_turns (s : State) (v : Option Word) : (s.setAhead v).turns = s.turns := rfl
@[simp] theorem State.setT1Pending_pc (s : State) (v : Bool) : (s.setT1Pending v).pc = s.pc := rfl
@[simp] theorem State.setT1Pending_psw (s : State) (v : Bool) : (s.setT1Pending v).psw = s.psw := rfl
@[simp] theorem State.setT1Pending_config (s : State) (v : Bool) : (s.setT1Pending v).config = s.config := rfl
@[simp] theorem State.setT1Pending_isp (s : State) (v : Bool) : (s.setT1Pending v).isp = s.isp := rfl
@[simp] theorem State.setT1Pending_msp (s : State) (v : Bool) : (s.setT1Pending v).msp = s.msp := rfl
@[simp] theorem State.setT1Pending_sp (s : State) (v : Bool) : (s.setT1Pending v).sp = s.sp := rfl
@[simp] theorem State.setT1Pending_shad (s : State) (v : Bool) : (s.setT1Pending v).shad = s.shad := rfl
@[simp] theorem State.setT1Pending_vb (s : State) (v : Bool) : (s.setT1Pending v).vb = s.vb := rfl
@[simp] theorem State.setT1Pending_stb (s : State) (v : Bool) : (s.setT1Pending v).stb = s.stb := rfl
@[simp] theorem State.setT1Pending_fault (s : State) (v : Bool) : (s.setT1Pending v).fault = s.fault := rfl
@[simp] theorem State.setT1Pending_timer1 (s : State) (v : Bool) : (s.setT1Pending v).timer1 = s.timer1 := rfl
@[simp] theorem State.setT1Pending_timer2 (s : State) (v : Bool) : (s.setT1Pending v).timer2 = s.timer2 := rfl
@[simp] theorem State.setT1Pending_cache (s : State) (v : Bool) : (s.setT1Pending v).cache = s.cache := rfl
@[simp] theorem State.setT1Pending_mem (s : State) (v : Bool) : (s.setT1Pending v).mem = s.mem := rfl
@[simp] theorem State.setT1Pending_textTlb (s : State) (v : Bool) : (s.setT1Pending v).textTlb = s.textTlb := rfl
@[simp] theorem State.setT1Pending_dataTlb (s : State) (v : Bool) : (s.setT1Pending v).dataTlb = s.dataTlb := rfl
@[simp] theorem State.setT1Pending_textNpsr (s : State) (v : Bool) : (s.setT1Pending v).textNpsr = s.textNpsr := rfl
@[simp] theorem State.setT1Pending_dataNpsr (s : State) (v : Bool) : (s.setT1Pending v).dataNpsr = s.dataNpsr := rfl
@[simp] theorem State.setT1Pending_pfbStale (s : State) (v : Bool) : (s.setT1Pending v).pfbStale = s.pfbStale := rfl
@[simp] theorem State.setT1Pending_icStale (s : State) (v : Bool) : (s.setT1Pending v).icStale = s.icStale := rfl
@[simp] theorem State.setT1Pending_textMaps (s : State) (v : Bool) : (s.setT1Pending v).textMaps = s.textMaps := rfl
@[simp] theorem State.setT1Pending_pfbQuads (s : State) (v : Bool) : (s.setT1Pending v).pfbQuads = s.pfbQuads := rfl
@[simp] theorem State.setT1Pending_ahead (s : State) (v : Bool) : (s.setT1Pending v).ahead = s.ahead := rfl
@[simp] theorem State.setT1Pending_t1Pending (s : State) (v : Bool) : (s.setT1Pending v).t1Pending = v := rfl
@[simp] theorem State.setT1Pending_t2Pending (s : State) (v : Bool) : (s.setT1Pending v).t2Pending = s.t2Pending := rfl
@[simp] theorem State.setT1Pending_nmiArmed (s : State) (v : Bool) : (s.setT1Pending v).nmiArmed = s.nmiArmed := rfl
@[simp] theorem State.setT1Pending_tracePending (s : State) (v : Bool) : (s.setT1Pending v).tracePending = s.tracePending := rfl
@[simp] theorem State.setT1Pending_writeFaults (s : State) (v : Bool) : (s.setT1Pending v).writeFaults = s.writeFaults := rfl
@[simp] theorem State.setT1Pending_configEff (s : State) (v : Bool) : (s.setT1Pending v).configEff = s.configEff := rfl
@[simp] theorem State.setT1Pending_vpEff (s : State) (v : Bool) : (s.setT1Pending v).vpEff = s.vpEff := rfl
@[simp] theorem State.setT1Pending_recent (s : State) (v : Bool) : (s.setT1Pending v).recent = s.recent := rfl
@[simp] theorem State.setT1Pending_ended (s : State) (v : Bool) : (s.setT1Pending v).ended = s.ended := rfl
@[simp] theorem State.setT1Pending_foldable (s : State) (v : Bool) : (s.setT1Pending v).foldable = s.foldable := rfl
@[simp] theorem State.setT1Pending_free (s : State) (v : Bool) : (s.setT1Pending v).free = s.free := rfl
@[simp] theorem State.setT1Pending_busMap (s : State) (v : Bool) : (s.setT1Pending v).busMap = s.busMap := rfl
@[simp] theorem State.setT1Pending_pins (s : State) (v : Bool) : (s.setT1Pending v).pins = s.pins := rfl
@[simp] theorem State.setT1Pending_turns (s : State) (v : Bool) : (s.setT1Pending v).turns = s.turns := rfl
@[simp] theorem State.setT2Pending_pc (s : State) (v : Bool) : (s.setT2Pending v).pc = s.pc := rfl
@[simp] theorem State.setT2Pending_psw (s : State) (v : Bool) : (s.setT2Pending v).psw = s.psw := rfl
@[simp] theorem State.setT2Pending_config (s : State) (v : Bool) : (s.setT2Pending v).config = s.config := rfl
@[simp] theorem State.setT2Pending_isp (s : State) (v : Bool) : (s.setT2Pending v).isp = s.isp := rfl
@[simp] theorem State.setT2Pending_msp (s : State) (v : Bool) : (s.setT2Pending v).msp = s.msp := rfl
@[simp] theorem State.setT2Pending_sp (s : State) (v : Bool) : (s.setT2Pending v).sp = s.sp := rfl
@[simp] theorem State.setT2Pending_shad (s : State) (v : Bool) : (s.setT2Pending v).shad = s.shad := rfl
@[simp] theorem State.setT2Pending_vb (s : State) (v : Bool) : (s.setT2Pending v).vb = s.vb := rfl
@[simp] theorem State.setT2Pending_stb (s : State) (v : Bool) : (s.setT2Pending v).stb = s.stb := rfl
@[simp] theorem State.setT2Pending_fault (s : State) (v : Bool) : (s.setT2Pending v).fault = s.fault := rfl
@[simp] theorem State.setT2Pending_timer1 (s : State) (v : Bool) : (s.setT2Pending v).timer1 = s.timer1 := rfl
@[simp] theorem State.setT2Pending_timer2 (s : State) (v : Bool) : (s.setT2Pending v).timer2 = s.timer2 := rfl
@[simp] theorem State.setT2Pending_cache (s : State) (v : Bool) : (s.setT2Pending v).cache = s.cache := rfl
@[simp] theorem State.setT2Pending_mem (s : State) (v : Bool) : (s.setT2Pending v).mem = s.mem := rfl
@[simp] theorem State.setT2Pending_textTlb (s : State) (v : Bool) : (s.setT2Pending v).textTlb = s.textTlb := rfl
@[simp] theorem State.setT2Pending_dataTlb (s : State) (v : Bool) : (s.setT2Pending v).dataTlb = s.dataTlb := rfl
@[simp] theorem State.setT2Pending_textNpsr (s : State) (v : Bool) : (s.setT2Pending v).textNpsr = s.textNpsr := rfl
@[simp] theorem State.setT2Pending_dataNpsr (s : State) (v : Bool) : (s.setT2Pending v).dataNpsr = s.dataNpsr := rfl
@[simp] theorem State.setT2Pending_pfbStale (s : State) (v : Bool) : (s.setT2Pending v).pfbStale = s.pfbStale := rfl
@[simp] theorem State.setT2Pending_icStale (s : State) (v : Bool) : (s.setT2Pending v).icStale = s.icStale := rfl
@[simp] theorem State.setT2Pending_textMaps (s : State) (v : Bool) : (s.setT2Pending v).textMaps = s.textMaps := rfl
@[simp] theorem State.setT2Pending_pfbQuads (s : State) (v : Bool) : (s.setT2Pending v).pfbQuads = s.pfbQuads := rfl
@[simp] theorem State.setT2Pending_ahead (s : State) (v : Bool) : (s.setT2Pending v).ahead = s.ahead := rfl
@[simp] theorem State.setT2Pending_t1Pending (s : State) (v : Bool) : (s.setT2Pending v).t1Pending = s.t1Pending := rfl
@[simp] theorem State.setT2Pending_t2Pending (s : State) (v : Bool) : (s.setT2Pending v).t2Pending = v := rfl
@[simp] theorem State.setT2Pending_nmiArmed (s : State) (v : Bool) : (s.setT2Pending v).nmiArmed = s.nmiArmed := rfl
@[simp] theorem State.setT2Pending_tracePending (s : State) (v : Bool) : (s.setT2Pending v).tracePending = s.tracePending := rfl
@[simp] theorem State.setT2Pending_writeFaults (s : State) (v : Bool) : (s.setT2Pending v).writeFaults = s.writeFaults := rfl
@[simp] theorem State.setT2Pending_configEff (s : State) (v : Bool) : (s.setT2Pending v).configEff = s.configEff := rfl
@[simp] theorem State.setT2Pending_vpEff (s : State) (v : Bool) : (s.setT2Pending v).vpEff = s.vpEff := rfl
@[simp] theorem State.setT2Pending_recent (s : State) (v : Bool) : (s.setT2Pending v).recent = s.recent := rfl
@[simp] theorem State.setT2Pending_ended (s : State) (v : Bool) : (s.setT2Pending v).ended = s.ended := rfl
@[simp] theorem State.setT2Pending_foldable (s : State) (v : Bool) : (s.setT2Pending v).foldable = s.foldable := rfl
@[simp] theorem State.setT2Pending_free (s : State) (v : Bool) : (s.setT2Pending v).free = s.free := rfl
@[simp] theorem State.setT2Pending_busMap (s : State) (v : Bool) : (s.setT2Pending v).busMap = s.busMap := rfl
@[simp] theorem State.setT2Pending_pins (s : State) (v : Bool) : (s.setT2Pending v).pins = s.pins := rfl
@[simp] theorem State.setT2Pending_turns (s : State) (v : Bool) : (s.setT2Pending v).turns = s.turns := rfl
@[simp] theorem State.setNmiArmed_pc (s : State) (v : Bool) : (s.setNmiArmed v).pc = s.pc := rfl
@[simp] theorem State.setNmiArmed_psw (s : State) (v : Bool) : (s.setNmiArmed v).psw = s.psw := rfl
@[simp] theorem State.setNmiArmed_config (s : State) (v : Bool) : (s.setNmiArmed v).config = s.config := rfl
@[simp] theorem State.setNmiArmed_isp (s : State) (v : Bool) : (s.setNmiArmed v).isp = s.isp := rfl
@[simp] theorem State.setNmiArmed_msp (s : State) (v : Bool) : (s.setNmiArmed v).msp = s.msp := rfl
@[simp] theorem State.setNmiArmed_sp (s : State) (v : Bool) : (s.setNmiArmed v).sp = s.sp := rfl
@[simp] theorem State.setNmiArmed_shad (s : State) (v : Bool) : (s.setNmiArmed v).shad = s.shad := rfl
@[simp] theorem State.setNmiArmed_vb (s : State) (v : Bool) : (s.setNmiArmed v).vb = s.vb := rfl
@[simp] theorem State.setNmiArmed_stb (s : State) (v : Bool) : (s.setNmiArmed v).stb = s.stb := rfl
@[simp] theorem State.setNmiArmed_fault (s : State) (v : Bool) : (s.setNmiArmed v).fault = s.fault := rfl
@[simp] theorem State.setNmiArmed_timer1 (s : State) (v : Bool) : (s.setNmiArmed v).timer1 = s.timer1 := rfl
@[simp] theorem State.setNmiArmed_timer2 (s : State) (v : Bool) : (s.setNmiArmed v).timer2 = s.timer2 := rfl
@[simp] theorem State.setNmiArmed_cache (s : State) (v : Bool) : (s.setNmiArmed v).cache = s.cache := rfl
@[simp] theorem State.setNmiArmed_mem (s : State) (v : Bool) : (s.setNmiArmed v).mem = s.mem := rfl
@[simp] theorem State.setNmiArmed_textTlb (s : State) (v : Bool) : (s.setNmiArmed v).textTlb = s.textTlb := rfl
@[simp] theorem State.setNmiArmed_dataTlb (s : State) (v : Bool) : (s.setNmiArmed v).dataTlb = s.dataTlb := rfl
@[simp] theorem State.setNmiArmed_textNpsr (s : State) (v : Bool) : (s.setNmiArmed v).textNpsr = s.textNpsr := rfl
@[simp] theorem State.setNmiArmed_dataNpsr (s : State) (v : Bool) : (s.setNmiArmed v).dataNpsr = s.dataNpsr := rfl
@[simp] theorem State.setNmiArmed_pfbStale (s : State) (v : Bool) : (s.setNmiArmed v).pfbStale = s.pfbStale := rfl
@[simp] theorem State.setNmiArmed_icStale (s : State) (v : Bool) : (s.setNmiArmed v).icStale = s.icStale := rfl
@[simp] theorem State.setNmiArmed_textMaps (s : State) (v : Bool) : (s.setNmiArmed v).textMaps = s.textMaps := rfl
@[simp] theorem State.setNmiArmed_pfbQuads (s : State) (v : Bool) : (s.setNmiArmed v).pfbQuads = s.pfbQuads := rfl
@[simp] theorem State.setNmiArmed_ahead (s : State) (v : Bool) : (s.setNmiArmed v).ahead = s.ahead := rfl
@[simp] theorem State.setNmiArmed_t1Pending (s : State) (v : Bool) : (s.setNmiArmed v).t1Pending = s.t1Pending := rfl
@[simp] theorem State.setNmiArmed_t2Pending (s : State) (v : Bool) : (s.setNmiArmed v).t2Pending = s.t2Pending := rfl
@[simp] theorem State.setNmiArmed_nmiArmed (s : State) (v : Bool) : (s.setNmiArmed v).nmiArmed = v := rfl
@[simp] theorem State.setNmiArmed_tracePending (s : State) (v : Bool) : (s.setNmiArmed v).tracePending = s.tracePending := rfl
@[simp] theorem State.setNmiArmed_writeFaults (s : State) (v : Bool) : (s.setNmiArmed v).writeFaults = s.writeFaults := rfl
@[simp] theorem State.setNmiArmed_configEff (s : State) (v : Bool) : (s.setNmiArmed v).configEff = s.configEff := rfl
@[simp] theorem State.setNmiArmed_vpEff (s : State) (v : Bool) : (s.setNmiArmed v).vpEff = s.vpEff := rfl
@[simp] theorem State.setNmiArmed_recent (s : State) (v : Bool) : (s.setNmiArmed v).recent = s.recent := rfl
@[simp] theorem State.setNmiArmed_ended (s : State) (v : Bool) : (s.setNmiArmed v).ended = s.ended := rfl
@[simp] theorem State.setNmiArmed_foldable (s : State) (v : Bool) : (s.setNmiArmed v).foldable = s.foldable := rfl
@[simp] theorem State.setNmiArmed_free (s : State) (v : Bool) : (s.setNmiArmed v).free = s.free := rfl
@[simp] theorem State.setNmiArmed_busMap (s : State) (v : Bool) : (s.setNmiArmed v).busMap = s.busMap := rfl
@[simp] theorem State.setNmiArmed_pins (s : State) (v : Bool) : (s.setNmiArmed v).pins = s.pins := rfl
@[simp] theorem State.setNmiArmed_turns (s : State) (v : Bool) : (s.setNmiArmed v).turns = s.turns := rfl
@[simp] theorem State.setTracePending_pc (s : State) (v : Bool) : (s.setTracePending v).pc = s.pc := rfl
@[simp] theorem State.setTracePending_psw (s : State) (v : Bool) : (s.setTracePending v).psw = s.psw := rfl
@[simp] theorem State.setTracePending_config (s : State) (v : Bool) : (s.setTracePending v).config = s.config := rfl
@[simp] theorem State.setTracePending_isp (s : State) (v : Bool) : (s.setTracePending v).isp = s.isp := rfl
@[simp] theorem State.setTracePending_msp (s : State) (v : Bool) : (s.setTracePending v).msp = s.msp := rfl
@[simp] theorem State.setTracePending_sp (s : State) (v : Bool) : (s.setTracePending v).sp = s.sp := rfl
@[simp] theorem State.setTracePending_shad (s : State) (v : Bool) : (s.setTracePending v).shad = s.shad := rfl
@[simp] theorem State.setTracePending_vb (s : State) (v : Bool) : (s.setTracePending v).vb = s.vb := rfl
@[simp] theorem State.setTracePending_stb (s : State) (v : Bool) : (s.setTracePending v).stb = s.stb := rfl
@[simp] theorem State.setTracePending_fault (s : State) (v : Bool) : (s.setTracePending v).fault = s.fault := rfl
@[simp] theorem State.setTracePending_timer1 (s : State) (v : Bool) : (s.setTracePending v).timer1 = s.timer1 := rfl
@[simp] theorem State.setTracePending_timer2 (s : State) (v : Bool) : (s.setTracePending v).timer2 = s.timer2 := rfl
@[simp] theorem State.setTracePending_cache (s : State) (v : Bool) : (s.setTracePending v).cache = s.cache := rfl
@[simp] theorem State.setTracePending_mem (s : State) (v : Bool) : (s.setTracePending v).mem = s.mem := rfl
@[simp] theorem State.setTracePending_textTlb (s : State) (v : Bool) : (s.setTracePending v).textTlb = s.textTlb := rfl
@[simp] theorem State.setTracePending_dataTlb (s : State) (v : Bool) : (s.setTracePending v).dataTlb = s.dataTlb := rfl
@[simp] theorem State.setTracePending_textNpsr (s : State) (v : Bool) : (s.setTracePending v).textNpsr = s.textNpsr := rfl
@[simp] theorem State.setTracePending_dataNpsr (s : State) (v : Bool) : (s.setTracePending v).dataNpsr = s.dataNpsr := rfl
@[simp] theorem State.setTracePending_pfbStale (s : State) (v : Bool) : (s.setTracePending v).pfbStale = s.pfbStale := rfl
@[simp] theorem State.setTracePending_icStale (s : State) (v : Bool) : (s.setTracePending v).icStale = s.icStale := rfl
@[simp] theorem State.setTracePending_textMaps (s : State) (v : Bool) : (s.setTracePending v).textMaps = s.textMaps := rfl
@[simp] theorem State.setTracePending_pfbQuads (s : State) (v : Bool) : (s.setTracePending v).pfbQuads = s.pfbQuads := rfl
@[simp] theorem State.setTracePending_ahead (s : State) (v : Bool) : (s.setTracePending v).ahead = s.ahead := rfl
@[simp] theorem State.setTracePending_t1Pending (s : State) (v : Bool) : (s.setTracePending v).t1Pending = s.t1Pending := rfl
@[simp] theorem State.setTracePending_t2Pending (s : State) (v : Bool) : (s.setTracePending v).t2Pending = s.t2Pending := rfl
@[simp] theorem State.setTracePending_nmiArmed (s : State) (v : Bool) : (s.setTracePending v).nmiArmed = s.nmiArmed := rfl
@[simp] theorem State.setTracePending_tracePending (s : State) (v : Bool) : (s.setTracePending v).tracePending = v := rfl
@[simp] theorem State.setTracePending_writeFaults (s : State) (v : Bool) : (s.setTracePending v).writeFaults = s.writeFaults := rfl
@[simp] theorem State.setTracePending_configEff (s : State) (v : Bool) : (s.setTracePending v).configEff = s.configEff := rfl
@[simp] theorem State.setTracePending_vpEff (s : State) (v : Bool) : (s.setTracePending v).vpEff = s.vpEff := rfl
@[simp] theorem State.setTracePending_recent (s : State) (v : Bool) : (s.setTracePending v).recent = s.recent := rfl
@[simp] theorem State.setTracePending_ended (s : State) (v : Bool) : (s.setTracePending v).ended = s.ended := rfl
@[simp] theorem State.setTracePending_foldable (s : State) (v : Bool) : (s.setTracePending v).foldable = s.foldable := rfl
@[simp] theorem State.setTracePending_free (s : State) (v : Bool) : (s.setTracePending v).free = s.free := rfl
@[simp] theorem State.setTracePending_busMap (s : State) (v : Bool) : (s.setTracePending v).busMap = s.busMap := rfl
@[simp] theorem State.setTracePending_pins (s : State) (v : Bool) : (s.setTracePending v).pins = s.pins := rfl
@[simp] theorem State.setTracePending_turns (s : State) (v : Bool) : (s.setTracePending v).turns = s.turns := rfl
@[simp] theorem State.setWriteFaults_pc (s : State) (v : Nat) : (s.setWriteFaults v).pc = s.pc := rfl
@[simp] theorem State.setWriteFaults_psw (s : State) (v : Nat) : (s.setWriteFaults v).psw = s.psw := rfl
@[simp] theorem State.setWriteFaults_config (s : State) (v : Nat) : (s.setWriteFaults v).config = s.config := rfl
@[simp] theorem State.setWriteFaults_isp (s : State) (v : Nat) : (s.setWriteFaults v).isp = s.isp := rfl
@[simp] theorem State.setWriteFaults_msp (s : State) (v : Nat) : (s.setWriteFaults v).msp = s.msp := rfl
@[simp] theorem State.setWriteFaults_sp (s : State) (v : Nat) : (s.setWriteFaults v).sp = s.sp := rfl
@[simp] theorem State.setWriteFaults_shad (s : State) (v : Nat) : (s.setWriteFaults v).shad = s.shad := rfl
@[simp] theorem State.setWriteFaults_vb (s : State) (v : Nat) : (s.setWriteFaults v).vb = s.vb := rfl
@[simp] theorem State.setWriteFaults_stb (s : State) (v : Nat) : (s.setWriteFaults v).stb = s.stb := rfl
@[simp] theorem State.setWriteFaults_fault (s : State) (v : Nat) : (s.setWriteFaults v).fault = s.fault := rfl
@[simp] theorem State.setWriteFaults_timer1 (s : State) (v : Nat) : (s.setWriteFaults v).timer1 = s.timer1 := rfl
@[simp] theorem State.setWriteFaults_timer2 (s : State) (v : Nat) : (s.setWriteFaults v).timer2 = s.timer2 := rfl
@[simp] theorem State.setWriteFaults_cache (s : State) (v : Nat) : (s.setWriteFaults v).cache = s.cache := rfl
@[simp] theorem State.setWriteFaults_mem (s : State) (v : Nat) : (s.setWriteFaults v).mem = s.mem := rfl
@[simp] theorem State.setWriteFaults_textTlb (s : State) (v : Nat) : (s.setWriteFaults v).textTlb = s.textTlb := rfl
@[simp] theorem State.setWriteFaults_dataTlb (s : State) (v : Nat) : (s.setWriteFaults v).dataTlb = s.dataTlb := rfl
@[simp] theorem State.setWriteFaults_textNpsr (s : State) (v : Nat) : (s.setWriteFaults v).textNpsr = s.textNpsr := rfl
@[simp] theorem State.setWriteFaults_dataNpsr (s : State) (v : Nat) : (s.setWriteFaults v).dataNpsr = s.dataNpsr := rfl
@[simp] theorem State.setWriteFaults_pfbStale (s : State) (v : Nat) : (s.setWriteFaults v).pfbStale = s.pfbStale := rfl
@[simp] theorem State.setWriteFaults_icStale (s : State) (v : Nat) : (s.setWriteFaults v).icStale = s.icStale := rfl
@[simp] theorem State.setWriteFaults_textMaps (s : State) (v : Nat) : (s.setWriteFaults v).textMaps = s.textMaps := rfl
@[simp] theorem State.setWriteFaults_pfbQuads (s : State) (v : Nat) : (s.setWriteFaults v).pfbQuads = s.pfbQuads := rfl
@[simp] theorem State.setWriteFaults_ahead (s : State) (v : Nat) : (s.setWriteFaults v).ahead = s.ahead := rfl
@[simp] theorem State.setWriteFaults_t1Pending (s : State) (v : Nat) : (s.setWriteFaults v).t1Pending = s.t1Pending := rfl
@[simp] theorem State.setWriteFaults_t2Pending (s : State) (v : Nat) : (s.setWriteFaults v).t2Pending = s.t2Pending := rfl
@[simp] theorem State.setWriteFaults_nmiArmed (s : State) (v : Nat) : (s.setWriteFaults v).nmiArmed = s.nmiArmed := rfl
@[simp] theorem State.setWriteFaults_tracePending (s : State) (v : Nat) : (s.setWriteFaults v).tracePending = s.tracePending := rfl
@[simp] theorem State.setWriteFaults_writeFaults (s : State) (v : Nat) : (s.setWriteFaults v).writeFaults = v := rfl
@[simp] theorem State.setWriteFaults_configEff (s : State) (v : Nat) : (s.setWriteFaults v).configEff = s.configEff := rfl
@[simp] theorem State.setWriteFaults_vpEff (s : State) (v : Nat) : (s.setWriteFaults v).vpEff = s.vpEff := rfl
@[simp] theorem State.setWriteFaults_recent (s : State) (v : Nat) : (s.setWriteFaults v).recent = s.recent := rfl
@[simp] theorem State.setWriteFaults_ended (s : State) (v : Nat) : (s.setWriteFaults v).ended = s.ended := rfl
@[simp] theorem State.setWriteFaults_foldable (s : State) (v : Nat) : (s.setWriteFaults v).foldable = s.foldable := rfl
@[simp] theorem State.setWriteFaults_free (s : State) (v : Nat) : (s.setWriteFaults v).free = s.free := rfl
@[simp] theorem State.setWriteFaults_busMap (s : State) (v : Nat) : (s.setWriteFaults v).busMap = s.busMap := rfl
@[simp] theorem State.setWriteFaults_pins (s : State) (v : Nat) : (s.setWriteFaults v).pins = s.pins := rfl
@[simp] theorem State.setWriteFaults_turns (s : State) (v : Nat) : (s.setWriteFaults v).turns = s.turns := rfl
@[simp] theorem State.setConfigEff_pc (s : State) (v : Word) : (s.setConfigEff v).pc = s.pc := rfl
@[simp] theorem State.setConfigEff_psw (s : State) (v : Word) : (s.setConfigEff v).psw = s.psw := rfl
@[simp] theorem State.setConfigEff_config (s : State) (v : Word) : (s.setConfigEff v).config = s.config := rfl
@[simp] theorem State.setConfigEff_isp (s : State) (v : Word) : (s.setConfigEff v).isp = s.isp := rfl
@[simp] theorem State.setConfigEff_msp (s : State) (v : Word) : (s.setConfigEff v).msp = s.msp := rfl
@[simp] theorem State.setConfigEff_sp (s : State) (v : Word) : (s.setConfigEff v).sp = s.sp := rfl
@[simp] theorem State.setConfigEff_shad (s : State) (v : Word) : (s.setConfigEff v).shad = s.shad := rfl
@[simp] theorem State.setConfigEff_vb (s : State) (v : Word) : (s.setConfigEff v).vb = s.vb := rfl
@[simp] theorem State.setConfigEff_stb (s : State) (v : Word) : (s.setConfigEff v).stb = s.stb := rfl
@[simp] theorem State.setConfigEff_fault (s : State) (v : Word) : (s.setConfigEff v).fault = s.fault := rfl
@[simp] theorem State.setConfigEff_timer1 (s : State) (v : Word) : (s.setConfigEff v).timer1 = s.timer1 := rfl
@[simp] theorem State.setConfigEff_timer2 (s : State) (v : Word) : (s.setConfigEff v).timer2 = s.timer2 := rfl
@[simp] theorem State.setConfigEff_cache (s : State) (v : Word) : (s.setConfigEff v).cache = s.cache := rfl
@[simp] theorem State.setConfigEff_mem (s : State) (v : Word) : (s.setConfigEff v).mem = s.mem := rfl
@[simp] theorem State.setConfigEff_textTlb (s : State) (v : Word) : (s.setConfigEff v).textTlb = s.textTlb := rfl
@[simp] theorem State.setConfigEff_dataTlb (s : State) (v : Word) : (s.setConfigEff v).dataTlb = s.dataTlb := rfl
@[simp] theorem State.setConfigEff_textNpsr (s : State) (v : Word) : (s.setConfigEff v).textNpsr = s.textNpsr := rfl
@[simp] theorem State.setConfigEff_dataNpsr (s : State) (v : Word) : (s.setConfigEff v).dataNpsr = s.dataNpsr := rfl
@[simp] theorem State.setConfigEff_pfbStale (s : State) (v : Word) : (s.setConfigEff v).pfbStale = s.pfbStale := rfl
@[simp] theorem State.setConfigEff_icStale (s : State) (v : Word) : (s.setConfigEff v).icStale = s.icStale := rfl
@[simp] theorem State.setConfigEff_textMaps (s : State) (v : Word) : (s.setConfigEff v).textMaps = s.textMaps := rfl
@[simp] theorem State.setConfigEff_pfbQuads (s : State) (v : Word) : (s.setConfigEff v).pfbQuads = s.pfbQuads := rfl
@[simp] theorem State.setConfigEff_ahead (s : State) (v : Word) : (s.setConfigEff v).ahead = s.ahead := rfl
@[simp] theorem State.setConfigEff_t1Pending (s : State) (v : Word) : (s.setConfigEff v).t1Pending = s.t1Pending := rfl
@[simp] theorem State.setConfigEff_t2Pending (s : State) (v : Word) : (s.setConfigEff v).t2Pending = s.t2Pending := rfl
@[simp] theorem State.setConfigEff_nmiArmed (s : State) (v : Word) : (s.setConfigEff v).nmiArmed = s.nmiArmed := rfl
@[simp] theorem State.setConfigEff_tracePending (s : State) (v : Word) : (s.setConfigEff v).tracePending = s.tracePending := rfl
@[simp] theorem State.setConfigEff_writeFaults (s : State) (v : Word) : (s.setConfigEff v).writeFaults = s.writeFaults := rfl
@[simp] theorem State.setConfigEff_configEff (s : State) (v : Word) : (s.setConfigEff v).configEff = v := rfl
@[simp] theorem State.setConfigEff_vpEff (s : State) (v : Word) : (s.setConfigEff v).vpEff = s.vpEff := rfl
@[simp] theorem State.setConfigEff_recent (s : State) (v : Word) : (s.setConfigEff v).recent = s.recent := rfl
@[simp] theorem State.setConfigEff_ended (s : State) (v : Word) : (s.setConfigEff v).ended = s.ended := rfl
@[simp] theorem State.setConfigEff_foldable (s : State) (v : Word) : (s.setConfigEff v).foldable = s.foldable := rfl
@[simp] theorem State.setConfigEff_free (s : State) (v : Word) : (s.setConfigEff v).free = s.free := rfl
@[simp] theorem State.setConfigEff_busMap (s : State) (v : Word) : (s.setConfigEff v).busMap = s.busMap := rfl
@[simp] theorem State.setConfigEff_pins (s : State) (v : Word) : (s.setConfigEff v).pins = s.pins := rfl
@[simp] theorem State.setConfigEff_turns (s : State) (v : Word) : (s.setConfigEff v).turns = s.turns := rfl
@[simp] theorem State.setVpEff_pc (s : State) (v : Bool) : (s.setVpEff v).pc = s.pc := rfl
@[simp] theorem State.setVpEff_psw (s : State) (v : Bool) : (s.setVpEff v).psw = s.psw := rfl
@[simp] theorem State.setVpEff_config (s : State) (v : Bool) : (s.setVpEff v).config = s.config := rfl
@[simp] theorem State.setVpEff_isp (s : State) (v : Bool) : (s.setVpEff v).isp = s.isp := rfl
@[simp] theorem State.setVpEff_msp (s : State) (v : Bool) : (s.setVpEff v).msp = s.msp := rfl
@[simp] theorem State.setVpEff_sp (s : State) (v : Bool) : (s.setVpEff v).sp = s.sp := rfl
@[simp] theorem State.setVpEff_shad (s : State) (v : Bool) : (s.setVpEff v).shad = s.shad := rfl
@[simp] theorem State.setVpEff_vb (s : State) (v : Bool) : (s.setVpEff v).vb = s.vb := rfl
@[simp] theorem State.setVpEff_stb (s : State) (v : Bool) : (s.setVpEff v).stb = s.stb := rfl
@[simp] theorem State.setVpEff_fault (s : State) (v : Bool) : (s.setVpEff v).fault = s.fault := rfl
@[simp] theorem State.setVpEff_timer1 (s : State) (v : Bool) : (s.setVpEff v).timer1 = s.timer1 := rfl
@[simp] theorem State.setVpEff_timer2 (s : State) (v : Bool) : (s.setVpEff v).timer2 = s.timer2 := rfl
@[simp] theorem State.setVpEff_cache (s : State) (v : Bool) : (s.setVpEff v).cache = s.cache := rfl
@[simp] theorem State.setVpEff_mem (s : State) (v : Bool) : (s.setVpEff v).mem = s.mem := rfl
@[simp] theorem State.setVpEff_textTlb (s : State) (v : Bool) : (s.setVpEff v).textTlb = s.textTlb := rfl
@[simp] theorem State.setVpEff_dataTlb (s : State) (v : Bool) : (s.setVpEff v).dataTlb = s.dataTlb := rfl
@[simp] theorem State.setVpEff_textNpsr (s : State) (v : Bool) : (s.setVpEff v).textNpsr = s.textNpsr := rfl
@[simp] theorem State.setVpEff_dataNpsr (s : State) (v : Bool) : (s.setVpEff v).dataNpsr = s.dataNpsr := rfl
@[simp] theorem State.setVpEff_pfbStale (s : State) (v : Bool) : (s.setVpEff v).pfbStale = s.pfbStale := rfl
@[simp] theorem State.setVpEff_icStale (s : State) (v : Bool) : (s.setVpEff v).icStale = s.icStale := rfl
@[simp] theorem State.setVpEff_textMaps (s : State) (v : Bool) : (s.setVpEff v).textMaps = s.textMaps := rfl
@[simp] theorem State.setVpEff_pfbQuads (s : State) (v : Bool) : (s.setVpEff v).pfbQuads = s.pfbQuads := rfl
@[simp] theorem State.setVpEff_ahead (s : State) (v : Bool) : (s.setVpEff v).ahead = s.ahead := rfl
@[simp] theorem State.setVpEff_t1Pending (s : State) (v : Bool) : (s.setVpEff v).t1Pending = s.t1Pending := rfl
@[simp] theorem State.setVpEff_t2Pending (s : State) (v : Bool) : (s.setVpEff v).t2Pending = s.t2Pending := rfl
@[simp] theorem State.setVpEff_nmiArmed (s : State) (v : Bool) : (s.setVpEff v).nmiArmed = s.nmiArmed := rfl
@[simp] theorem State.setVpEff_tracePending (s : State) (v : Bool) : (s.setVpEff v).tracePending = s.tracePending := rfl
@[simp] theorem State.setVpEff_writeFaults (s : State) (v : Bool) : (s.setVpEff v).writeFaults = s.writeFaults := rfl
@[simp] theorem State.setVpEff_configEff (s : State) (v : Bool) : (s.setVpEff v).configEff = s.configEff := rfl
@[simp] theorem State.setVpEff_vpEff (s : State) (v : Bool) : (s.setVpEff v).vpEff = v := rfl
@[simp] theorem State.setVpEff_recent (s : State) (v : Bool) : (s.setVpEff v).recent = s.recent := rfl
@[simp] theorem State.setVpEff_ended (s : State) (v : Bool) : (s.setVpEff v).ended = s.ended := rfl
@[simp] theorem State.setVpEff_foldable (s : State) (v : Bool) : (s.setVpEff v).foldable = s.foldable := rfl
@[simp] theorem State.setVpEff_free (s : State) (v : Bool) : (s.setVpEff v).free = s.free := rfl
@[simp] theorem State.setVpEff_busMap (s : State) (v : Bool) : (s.setVpEff v).busMap = s.busMap := rfl
@[simp] theorem State.setVpEff_pins (s : State) (v : Bool) : (s.setVpEff v).pins = s.pins := rfl
@[simp] theorem State.setVpEff_turns (s : State) (v : Bool) : (s.setVpEff v).turns = s.turns := rfl
@[simp] theorem State.setRecent_pc (s : State) (v : List Recent) : (s.setRecent v).pc = s.pc := rfl
@[simp] theorem State.setRecent_psw (s : State) (v : List Recent) : (s.setRecent v).psw = s.psw := rfl
@[simp] theorem State.setRecent_config (s : State) (v : List Recent) : (s.setRecent v).config = s.config := rfl
@[simp] theorem State.setRecent_isp (s : State) (v : List Recent) : (s.setRecent v).isp = s.isp := rfl
@[simp] theorem State.setRecent_msp (s : State) (v : List Recent) : (s.setRecent v).msp = s.msp := rfl
@[simp] theorem State.setRecent_sp (s : State) (v : List Recent) : (s.setRecent v).sp = s.sp := rfl
@[simp] theorem State.setRecent_shad (s : State) (v : List Recent) : (s.setRecent v).shad = s.shad := rfl
@[simp] theorem State.setRecent_vb (s : State) (v : List Recent) : (s.setRecent v).vb = s.vb := rfl
@[simp] theorem State.setRecent_stb (s : State) (v : List Recent) : (s.setRecent v).stb = s.stb := rfl
@[simp] theorem State.setRecent_fault (s : State) (v : List Recent) : (s.setRecent v).fault = s.fault := rfl
@[simp] theorem State.setRecent_timer1 (s : State) (v : List Recent) : (s.setRecent v).timer1 = s.timer1 := rfl
@[simp] theorem State.setRecent_timer2 (s : State) (v : List Recent) : (s.setRecent v).timer2 = s.timer2 := rfl
@[simp] theorem State.setRecent_cache (s : State) (v : List Recent) : (s.setRecent v).cache = s.cache := rfl
@[simp] theorem State.setRecent_mem (s : State) (v : List Recent) : (s.setRecent v).mem = s.mem := rfl
@[simp] theorem State.setRecent_textTlb (s : State) (v : List Recent) : (s.setRecent v).textTlb = s.textTlb := rfl
@[simp] theorem State.setRecent_dataTlb (s : State) (v : List Recent) : (s.setRecent v).dataTlb = s.dataTlb := rfl
@[simp] theorem State.setRecent_textNpsr (s : State) (v : List Recent) : (s.setRecent v).textNpsr = s.textNpsr := rfl
@[simp] theorem State.setRecent_dataNpsr (s : State) (v : List Recent) : (s.setRecent v).dataNpsr = s.dataNpsr := rfl
@[simp] theorem State.setRecent_pfbStale (s : State) (v : List Recent) : (s.setRecent v).pfbStale = s.pfbStale := rfl
@[simp] theorem State.setRecent_icStale (s : State) (v : List Recent) : (s.setRecent v).icStale = s.icStale := rfl
@[simp] theorem State.setRecent_textMaps (s : State) (v : List Recent) : (s.setRecent v).textMaps = s.textMaps := rfl
@[simp] theorem State.setRecent_pfbQuads (s : State) (v : List Recent) : (s.setRecent v).pfbQuads = s.pfbQuads := rfl
@[simp] theorem State.setRecent_ahead (s : State) (v : List Recent) : (s.setRecent v).ahead = s.ahead := rfl
@[simp] theorem State.setRecent_t1Pending (s : State) (v : List Recent) : (s.setRecent v).t1Pending = s.t1Pending := rfl
@[simp] theorem State.setRecent_t2Pending (s : State) (v : List Recent) : (s.setRecent v).t2Pending = s.t2Pending := rfl
@[simp] theorem State.setRecent_nmiArmed (s : State) (v : List Recent) : (s.setRecent v).nmiArmed = s.nmiArmed := rfl
@[simp] theorem State.setRecent_tracePending (s : State) (v : List Recent) : (s.setRecent v).tracePending = s.tracePending := rfl
@[simp] theorem State.setRecent_writeFaults (s : State) (v : List Recent) : (s.setRecent v).writeFaults = s.writeFaults := rfl
@[simp] theorem State.setRecent_configEff (s : State) (v : List Recent) : (s.setRecent v).configEff = s.configEff := rfl
@[simp] theorem State.setRecent_vpEff (s : State) (v : List Recent) : (s.setRecent v).vpEff = s.vpEff := rfl
@[simp] theorem State.setRecent_recent (s : State) (v : List Recent) : (s.setRecent v).recent = v := rfl
@[simp] theorem State.setRecent_ended (s : State) (v : List Recent) : (s.setRecent v).ended = s.ended := rfl
@[simp] theorem State.setRecent_foldable (s : State) (v : List Recent) : (s.setRecent v).foldable = s.foldable := rfl
@[simp] theorem State.setRecent_free (s : State) (v : List Recent) : (s.setRecent v).free = s.free := rfl
@[simp] theorem State.setRecent_busMap (s : State) (v : List Recent) : (s.setRecent v).busMap = s.busMap := rfl
@[simp] theorem State.setRecent_pins (s : State) (v : List Recent) : (s.setRecent v).pins = s.pins := rfl
@[simp] theorem State.setRecent_turns (s : State) (v : List Recent) : (s.setRecent v).turns = s.turns := rfl
@[simp] theorem State.setEnded_pc (s : State) (v : Ended) : (s.setEnded v).pc = s.pc := rfl
@[simp] theorem State.setEnded_psw (s : State) (v : Ended) : (s.setEnded v).psw = s.psw := rfl
@[simp] theorem State.setEnded_config (s : State) (v : Ended) : (s.setEnded v).config = s.config := rfl
@[simp] theorem State.setEnded_isp (s : State) (v : Ended) : (s.setEnded v).isp = s.isp := rfl
@[simp] theorem State.setEnded_msp (s : State) (v : Ended) : (s.setEnded v).msp = s.msp := rfl
@[simp] theorem State.setEnded_sp (s : State) (v : Ended) : (s.setEnded v).sp = s.sp := rfl
@[simp] theorem State.setEnded_shad (s : State) (v : Ended) : (s.setEnded v).shad = s.shad := rfl
@[simp] theorem State.setEnded_vb (s : State) (v : Ended) : (s.setEnded v).vb = s.vb := rfl
@[simp] theorem State.setEnded_stb (s : State) (v : Ended) : (s.setEnded v).stb = s.stb := rfl
@[simp] theorem State.setEnded_fault (s : State) (v : Ended) : (s.setEnded v).fault = s.fault := rfl
@[simp] theorem State.setEnded_timer1 (s : State) (v : Ended) : (s.setEnded v).timer1 = s.timer1 := rfl
@[simp] theorem State.setEnded_timer2 (s : State) (v : Ended) : (s.setEnded v).timer2 = s.timer2 := rfl
@[simp] theorem State.setEnded_cache (s : State) (v : Ended) : (s.setEnded v).cache = s.cache := rfl
@[simp] theorem State.setEnded_mem (s : State) (v : Ended) : (s.setEnded v).mem = s.mem := rfl
@[simp] theorem State.setEnded_textTlb (s : State) (v : Ended) : (s.setEnded v).textTlb = s.textTlb := rfl
@[simp] theorem State.setEnded_dataTlb (s : State) (v : Ended) : (s.setEnded v).dataTlb = s.dataTlb := rfl
@[simp] theorem State.setEnded_textNpsr (s : State) (v : Ended) : (s.setEnded v).textNpsr = s.textNpsr := rfl
@[simp] theorem State.setEnded_dataNpsr (s : State) (v : Ended) : (s.setEnded v).dataNpsr = s.dataNpsr := rfl
@[simp] theorem State.setEnded_pfbStale (s : State) (v : Ended) : (s.setEnded v).pfbStale = s.pfbStale := rfl
@[simp] theorem State.setEnded_icStale (s : State) (v : Ended) : (s.setEnded v).icStale = s.icStale := rfl
@[simp] theorem State.setEnded_textMaps (s : State) (v : Ended) : (s.setEnded v).textMaps = s.textMaps := rfl
@[simp] theorem State.setEnded_pfbQuads (s : State) (v : Ended) : (s.setEnded v).pfbQuads = s.pfbQuads := rfl
@[simp] theorem State.setEnded_ahead (s : State) (v : Ended) : (s.setEnded v).ahead = s.ahead := rfl
@[simp] theorem State.setEnded_t1Pending (s : State) (v : Ended) : (s.setEnded v).t1Pending = s.t1Pending := rfl
@[simp] theorem State.setEnded_t2Pending (s : State) (v : Ended) : (s.setEnded v).t2Pending = s.t2Pending := rfl
@[simp] theorem State.setEnded_nmiArmed (s : State) (v : Ended) : (s.setEnded v).nmiArmed = s.nmiArmed := rfl
@[simp] theorem State.setEnded_tracePending (s : State) (v : Ended) : (s.setEnded v).tracePending = s.tracePending := rfl
@[simp] theorem State.setEnded_writeFaults (s : State) (v : Ended) : (s.setEnded v).writeFaults = s.writeFaults := rfl
@[simp] theorem State.setEnded_configEff (s : State) (v : Ended) : (s.setEnded v).configEff = s.configEff := rfl
@[simp] theorem State.setEnded_vpEff (s : State) (v : Ended) : (s.setEnded v).vpEff = s.vpEff := rfl
@[simp] theorem State.setEnded_recent (s : State) (v : Ended) : (s.setEnded v).recent = s.recent := rfl
@[simp] theorem State.setEnded_ended (s : State) (v : Ended) : (s.setEnded v).ended = v := rfl
@[simp] theorem State.setEnded_foldable (s : State) (v : Ended) : (s.setEnded v).foldable = s.foldable := rfl
@[simp] theorem State.setEnded_free (s : State) (v : Ended) : (s.setEnded v).free = s.free := rfl
@[simp] theorem State.setEnded_busMap (s : State) (v : Ended) : (s.setEnded v).busMap = s.busMap := rfl
@[simp] theorem State.setEnded_pins (s : State) (v : Ended) : (s.setEnded v).pins = s.pins := rfl
@[simp] theorem State.setEnded_turns (s : State) (v : Ended) : (s.setEnded v).turns = s.turns := rfl
@[simp] theorem State.setFoldable_pc (s : State) (v : Bool) : (s.setFoldable v).pc = s.pc := rfl
@[simp] theorem State.setFoldable_psw (s : State) (v : Bool) : (s.setFoldable v).psw = s.psw := rfl
@[simp] theorem State.setFoldable_config (s : State) (v : Bool) : (s.setFoldable v).config = s.config := rfl
@[simp] theorem State.setFoldable_isp (s : State) (v : Bool) : (s.setFoldable v).isp = s.isp := rfl
@[simp] theorem State.setFoldable_msp (s : State) (v : Bool) : (s.setFoldable v).msp = s.msp := rfl
@[simp] theorem State.setFoldable_sp (s : State) (v : Bool) : (s.setFoldable v).sp = s.sp := rfl
@[simp] theorem State.setFoldable_shad (s : State) (v : Bool) : (s.setFoldable v).shad = s.shad := rfl
@[simp] theorem State.setFoldable_vb (s : State) (v : Bool) : (s.setFoldable v).vb = s.vb := rfl
@[simp] theorem State.setFoldable_stb (s : State) (v : Bool) : (s.setFoldable v).stb = s.stb := rfl
@[simp] theorem State.setFoldable_fault (s : State) (v : Bool) : (s.setFoldable v).fault = s.fault := rfl
@[simp] theorem State.setFoldable_timer1 (s : State) (v : Bool) : (s.setFoldable v).timer1 = s.timer1 := rfl
@[simp] theorem State.setFoldable_timer2 (s : State) (v : Bool) : (s.setFoldable v).timer2 = s.timer2 := rfl
@[simp] theorem State.setFoldable_cache (s : State) (v : Bool) : (s.setFoldable v).cache = s.cache := rfl
@[simp] theorem State.setFoldable_mem (s : State) (v : Bool) : (s.setFoldable v).mem = s.mem := rfl
@[simp] theorem State.setFoldable_textTlb (s : State) (v : Bool) : (s.setFoldable v).textTlb = s.textTlb := rfl
@[simp] theorem State.setFoldable_dataTlb (s : State) (v : Bool) : (s.setFoldable v).dataTlb = s.dataTlb := rfl
@[simp] theorem State.setFoldable_textNpsr (s : State) (v : Bool) : (s.setFoldable v).textNpsr = s.textNpsr := rfl
@[simp] theorem State.setFoldable_dataNpsr (s : State) (v : Bool) : (s.setFoldable v).dataNpsr = s.dataNpsr := rfl
@[simp] theorem State.setFoldable_pfbStale (s : State) (v : Bool) : (s.setFoldable v).pfbStale = s.pfbStale := rfl
@[simp] theorem State.setFoldable_icStale (s : State) (v : Bool) : (s.setFoldable v).icStale = s.icStale := rfl
@[simp] theorem State.setFoldable_textMaps (s : State) (v : Bool) : (s.setFoldable v).textMaps = s.textMaps := rfl
@[simp] theorem State.setFoldable_pfbQuads (s : State) (v : Bool) : (s.setFoldable v).pfbQuads = s.pfbQuads := rfl
@[simp] theorem State.setFoldable_ahead (s : State) (v : Bool) : (s.setFoldable v).ahead = s.ahead := rfl
@[simp] theorem State.setFoldable_t1Pending (s : State) (v : Bool) : (s.setFoldable v).t1Pending = s.t1Pending := rfl
@[simp] theorem State.setFoldable_t2Pending (s : State) (v : Bool) : (s.setFoldable v).t2Pending = s.t2Pending := rfl
@[simp] theorem State.setFoldable_nmiArmed (s : State) (v : Bool) : (s.setFoldable v).nmiArmed = s.nmiArmed := rfl
@[simp] theorem State.setFoldable_tracePending (s : State) (v : Bool) : (s.setFoldable v).tracePending = s.tracePending := rfl
@[simp] theorem State.setFoldable_writeFaults (s : State) (v : Bool) : (s.setFoldable v).writeFaults = s.writeFaults := rfl
@[simp] theorem State.setFoldable_configEff (s : State) (v : Bool) : (s.setFoldable v).configEff = s.configEff := rfl
@[simp] theorem State.setFoldable_vpEff (s : State) (v : Bool) : (s.setFoldable v).vpEff = s.vpEff := rfl
@[simp] theorem State.setFoldable_recent (s : State) (v : Bool) : (s.setFoldable v).recent = s.recent := rfl
@[simp] theorem State.setFoldable_ended (s : State) (v : Bool) : (s.setFoldable v).ended = s.ended := rfl
@[simp] theorem State.setFoldable_foldable (s : State) (v : Bool) : (s.setFoldable v).foldable = v := rfl
@[simp] theorem State.setFoldable_free (s : State) (v : Bool) : (s.setFoldable v).free = s.free := rfl
@[simp] theorem State.setFoldable_busMap (s : State) (v : Bool) : (s.setFoldable v).busMap = s.busMap := rfl
@[simp] theorem State.setFoldable_pins (s : State) (v : Bool) : (s.setFoldable v).pins = s.pins := rfl
@[simp] theorem State.setFoldable_turns (s : State) (v : Bool) : (s.setFoldable v).turns = s.turns := rfl
@[simp] theorem State.setFree_pc (s : State) (v : Nat) : (s.setFree v).pc = s.pc := rfl
@[simp] theorem State.setFree_psw (s : State) (v : Nat) : (s.setFree v).psw = s.psw := rfl
@[simp] theorem State.setFree_config (s : State) (v : Nat) : (s.setFree v).config = s.config := rfl
@[simp] theorem State.setFree_isp (s : State) (v : Nat) : (s.setFree v).isp = s.isp := rfl
@[simp] theorem State.setFree_msp (s : State) (v : Nat) : (s.setFree v).msp = s.msp := rfl
@[simp] theorem State.setFree_sp (s : State) (v : Nat) : (s.setFree v).sp = s.sp := rfl
@[simp] theorem State.setFree_shad (s : State) (v : Nat) : (s.setFree v).shad = s.shad := rfl
@[simp] theorem State.setFree_vb (s : State) (v : Nat) : (s.setFree v).vb = s.vb := rfl
@[simp] theorem State.setFree_stb (s : State) (v : Nat) : (s.setFree v).stb = s.stb := rfl
@[simp] theorem State.setFree_fault (s : State) (v : Nat) : (s.setFree v).fault = s.fault := rfl
@[simp] theorem State.setFree_timer1 (s : State) (v : Nat) : (s.setFree v).timer1 = s.timer1 := rfl
@[simp] theorem State.setFree_timer2 (s : State) (v : Nat) : (s.setFree v).timer2 = s.timer2 := rfl
@[simp] theorem State.setFree_cache (s : State) (v : Nat) : (s.setFree v).cache = s.cache := rfl
@[simp] theorem State.setFree_mem (s : State) (v : Nat) : (s.setFree v).mem = s.mem := rfl
@[simp] theorem State.setFree_textTlb (s : State) (v : Nat) : (s.setFree v).textTlb = s.textTlb := rfl
@[simp] theorem State.setFree_dataTlb (s : State) (v : Nat) : (s.setFree v).dataTlb = s.dataTlb := rfl
@[simp] theorem State.setFree_textNpsr (s : State) (v : Nat) : (s.setFree v).textNpsr = s.textNpsr := rfl
@[simp] theorem State.setFree_dataNpsr (s : State) (v : Nat) : (s.setFree v).dataNpsr = s.dataNpsr := rfl
@[simp] theorem State.setFree_pfbStale (s : State) (v : Nat) : (s.setFree v).pfbStale = s.pfbStale := rfl
@[simp] theorem State.setFree_icStale (s : State) (v : Nat) : (s.setFree v).icStale = s.icStale := rfl
@[simp] theorem State.setFree_textMaps (s : State) (v : Nat) : (s.setFree v).textMaps = s.textMaps := rfl
@[simp] theorem State.setFree_pfbQuads (s : State) (v : Nat) : (s.setFree v).pfbQuads = s.pfbQuads := rfl
@[simp] theorem State.setFree_ahead (s : State) (v : Nat) : (s.setFree v).ahead = s.ahead := rfl
@[simp] theorem State.setFree_t1Pending (s : State) (v : Nat) : (s.setFree v).t1Pending = s.t1Pending := rfl
@[simp] theorem State.setFree_t2Pending (s : State) (v : Nat) : (s.setFree v).t2Pending = s.t2Pending := rfl
@[simp] theorem State.setFree_nmiArmed (s : State) (v : Nat) : (s.setFree v).nmiArmed = s.nmiArmed := rfl
@[simp] theorem State.setFree_tracePending (s : State) (v : Nat) : (s.setFree v).tracePending = s.tracePending := rfl
@[simp] theorem State.setFree_writeFaults (s : State) (v : Nat) : (s.setFree v).writeFaults = s.writeFaults := rfl
@[simp] theorem State.setFree_configEff (s : State) (v : Nat) : (s.setFree v).configEff = s.configEff := rfl
@[simp] theorem State.setFree_vpEff (s : State) (v : Nat) : (s.setFree v).vpEff = s.vpEff := rfl
@[simp] theorem State.setFree_recent (s : State) (v : Nat) : (s.setFree v).recent = s.recent := rfl
@[simp] theorem State.setFree_ended (s : State) (v : Nat) : (s.setFree v).ended = s.ended := rfl
@[simp] theorem State.setFree_foldable (s : State) (v : Nat) : (s.setFree v).foldable = s.foldable := rfl
@[simp] theorem State.setFree_free (s : State) (v : Nat) : (s.setFree v).free = v := rfl
@[simp] theorem State.setFree_busMap (s : State) (v : Nat) : (s.setFree v).busMap = s.busMap := rfl
@[simp] theorem State.setFree_pins (s : State) (v : Nat) : (s.setFree v).pins = s.pins := rfl
@[simp] theorem State.setFree_turns (s : State) (v : Nat) : (s.setFree v).turns = s.turns := rfl
@[simp] theorem State.setBusMap_pc (s : State) (v : List BusRegion) : (s.setBusMap v).pc = s.pc := rfl
@[simp] theorem State.setBusMap_psw (s : State) (v : List BusRegion) : (s.setBusMap v).psw = s.psw := rfl
@[simp] theorem State.setBusMap_config (s : State) (v : List BusRegion) : (s.setBusMap v).config = s.config := rfl
@[simp] theorem State.setBusMap_isp (s : State) (v : List BusRegion) : (s.setBusMap v).isp = s.isp := rfl
@[simp] theorem State.setBusMap_msp (s : State) (v : List BusRegion) : (s.setBusMap v).msp = s.msp := rfl
@[simp] theorem State.setBusMap_sp (s : State) (v : List BusRegion) : (s.setBusMap v).sp = s.sp := rfl
@[simp] theorem State.setBusMap_shad (s : State) (v : List BusRegion) : (s.setBusMap v).shad = s.shad := rfl
@[simp] theorem State.setBusMap_vb (s : State) (v : List BusRegion) : (s.setBusMap v).vb = s.vb := rfl
@[simp] theorem State.setBusMap_stb (s : State) (v : List BusRegion) : (s.setBusMap v).stb = s.stb := rfl
@[simp] theorem State.setBusMap_fault (s : State) (v : List BusRegion) : (s.setBusMap v).fault = s.fault := rfl
@[simp] theorem State.setBusMap_timer1 (s : State) (v : List BusRegion) : (s.setBusMap v).timer1 = s.timer1 := rfl
@[simp] theorem State.setBusMap_timer2 (s : State) (v : List BusRegion) : (s.setBusMap v).timer2 = s.timer2 := rfl
@[simp] theorem State.setBusMap_cache (s : State) (v : List BusRegion) : (s.setBusMap v).cache = s.cache := rfl
@[simp] theorem State.setBusMap_mem (s : State) (v : List BusRegion) : (s.setBusMap v).mem = s.mem := rfl
@[simp] theorem State.setBusMap_textTlb (s : State) (v : List BusRegion) : (s.setBusMap v).textTlb = s.textTlb := rfl
@[simp] theorem State.setBusMap_dataTlb (s : State) (v : List BusRegion) : (s.setBusMap v).dataTlb = s.dataTlb := rfl
@[simp] theorem State.setBusMap_textNpsr (s : State) (v : List BusRegion) : (s.setBusMap v).textNpsr = s.textNpsr := rfl
@[simp] theorem State.setBusMap_dataNpsr (s : State) (v : List BusRegion) : (s.setBusMap v).dataNpsr = s.dataNpsr := rfl
@[simp] theorem State.setBusMap_pfbStale (s : State) (v : List BusRegion) : (s.setBusMap v).pfbStale = s.pfbStale := rfl
@[simp] theorem State.setBusMap_icStale (s : State) (v : List BusRegion) : (s.setBusMap v).icStale = s.icStale := rfl
@[simp] theorem State.setBusMap_textMaps (s : State) (v : List BusRegion) : (s.setBusMap v).textMaps = s.textMaps := rfl
@[simp] theorem State.setBusMap_pfbQuads (s : State) (v : List BusRegion) : (s.setBusMap v).pfbQuads = s.pfbQuads := rfl
@[simp] theorem State.setBusMap_ahead (s : State) (v : List BusRegion) : (s.setBusMap v).ahead = s.ahead := rfl
@[simp] theorem State.setBusMap_t1Pending (s : State) (v : List BusRegion) : (s.setBusMap v).t1Pending = s.t1Pending := rfl
@[simp] theorem State.setBusMap_t2Pending (s : State) (v : List BusRegion) : (s.setBusMap v).t2Pending = s.t2Pending := rfl
@[simp] theorem State.setBusMap_nmiArmed (s : State) (v : List BusRegion) : (s.setBusMap v).nmiArmed = s.nmiArmed := rfl
@[simp] theorem State.setBusMap_tracePending (s : State) (v : List BusRegion) : (s.setBusMap v).tracePending = s.tracePending := rfl
@[simp] theorem State.setBusMap_writeFaults (s : State) (v : List BusRegion) : (s.setBusMap v).writeFaults = s.writeFaults := rfl
@[simp] theorem State.setBusMap_configEff (s : State) (v : List BusRegion) : (s.setBusMap v).configEff = s.configEff := rfl
@[simp] theorem State.setBusMap_vpEff (s : State) (v : List BusRegion) : (s.setBusMap v).vpEff = s.vpEff := rfl
@[simp] theorem State.setBusMap_recent (s : State) (v : List BusRegion) : (s.setBusMap v).recent = s.recent := rfl
@[simp] theorem State.setBusMap_ended (s : State) (v : List BusRegion) : (s.setBusMap v).ended = s.ended := rfl
@[simp] theorem State.setBusMap_foldable (s : State) (v : List BusRegion) : (s.setBusMap v).foldable = s.foldable := rfl
@[simp] theorem State.setBusMap_free (s : State) (v : List BusRegion) : (s.setBusMap v).free = s.free := rfl
@[simp] theorem State.setBusMap_busMap (s : State) (v : List BusRegion) : (s.setBusMap v).busMap = v := rfl
@[simp] theorem State.setBusMap_pins (s : State) (v : List BusRegion) : (s.setBusMap v).pins = s.pins := rfl
@[simp] theorem State.setBusMap_turns (s : State) (v : List BusRegion) : (s.setBusMap v).turns = s.turns := rfl
@[simp] theorem State.setPins_pc (s : State) (v : List Pins) : (s.setPins v).pc = s.pc := rfl
@[simp] theorem State.setPins_psw (s : State) (v : List Pins) : (s.setPins v).psw = s.psw := rfl
@[simp] theorem State.setPins_config (s : State) (v : List Pins) : (s.setPins v).config = s.config := rfl
@[simp] theorem State.setPins_isp (s : State) (v : List Pins) : (s.setPins v).isp = s.isp := rfl
@[simp] theorem State.setPins_msp (s : State) (v : List Pins) : (s.setPins v).msp = s.msp := rfl
@[simp] theorem State.setPins_sp (s : State) (v : List Pins) : (s.setPins v).sp = s.sp := rfl
@[simp] theorem State.setPins_shad (s : State) (v : List Pins) : (s.setPins v).shad = s.shad := rfl
@[simp] theorem State.setPins_vb (s : State) (v : List Pins) : (s.setPins v).vb = s.vb := rfl
@[simp] theorem State.setPins_stb (s : State) (v : List Pins) : (s.setPins v).stb = s.stb := rfl
@[simp] theorem State.setPins_fault (s : State) (v : List Pins) : (s.setPins v).fault = s.fault := rfl
@[simp] theorem State.setPins_timer1 (s : State) (v : List Pins) : (s.setPins v).timer1 = s.timer1 := rfl
@[simp] theorem State.setPins_timer2 (s : State) (v : List Pins) : (s.setPins v).timer2 = s.timer2 := rfl
@[simp] theorem State.setPins_cache (s : State) (v : List Pins) : (s.setPins v).cache = s.cache := rfl
@[simp] theorem State.setPins_mem (s : State) (v : List Pins) : (s.setPins v).mem = s.mem := rfl
@[simp] theorem State.setPins_textTlb (s : State) (v : List Pins) : (s.setPins v).textTlb = s.textTlb := rfl
@[simp] theorem State.setPins_dataTlb (s : State) (v : List Pins) : (s.setPins v).dataTlb = s.dataTlb := rfl
@[simp] theorem State.setPins_textNpsr (s : State) (v : List Pins) : (s.setPins v).textNpsr = s.textNpsr := rfl
@[simp] theorem State.setPins_dataNpsr (s : State) (v : List Pins) : (s.setPins v).dataNpsr = s.dataNpsr := rfl
@[simp] theorem State.setPins_pfbStale (s : State) (v : List Pins) : (s.setPins v).pfbStale = s.pfbStale := rfl
@[simp] theorem State.setPins_icStale (s : State) (v : List Pins) : (s.setPins v).icStale = s.icStale := rfl
@[simp] theorem State.setPins_textMaps (s : State) (v : List Pins) : (s.setPins v).textMaps = s.textMaps := rfl
@[simp] theorem State.setPins_pfbQuads (s : State) (v : List Pins) : (s.setPins v).pfbQuads = s.pfbQuads := rfl
@[simp] theorem State.setPins_ahead (s : State) (v : List Pins) : (s.setPins v).ahead = s.ahead := rfl
@[simp] theorem State.setPins_t1Pending (s : State) (v : List Pins) : (s.setPins v).t1Pending = s.t1Pending := rfl
@[simp] theorem State.setPins_t2Pending (s : State) (v : List Pins) : (s.setPins v).t2Pending = s.t2Pending := rfl
@[simp] theorem State.setPins_nmiArmed (s : State) (v : List Pins) : (s.setPins v).nmiArmed = s.nmiArmed := rfl
@[simp] theorem State.setPins_tracePending (s : State) (v : List Pins) : (s.setPins v).tracePending = s.tracePending := rfl
@[simp] theorem State.setPins_writeFaults (s : State) (v : List Pins) : (s.setPins v).writeFaults = s.writeFaults := rfl
@[simp] theorem State.setPins_configEff (s : State) (v : List Pins) : (s.setPins v).configEff = s.configEff := rfl
@[simp] theorem State.setPins_vpEff (s : State) (v : List Pins) : (s.setPins v).vpEff = s.vpEff := rfl
@[simp] theorem State.setPins_recent (s : State) (v : List Pins) : (s.setPins v).recent = s.recent := rfl
@[simp] theorem State.setPins_ended (s : State) (v : List Pins) : (s.setPins v).ended = s.ended := rfl
@[simp] theorem State.setPins_foldable (s : State) (v : List Pins) : (s.setPins v).foldable = s.foldable := rfl
@[simp] theorem State.setPins_free (s : State) (v : List Pins) : (s.setPins v).free = s.free := rfl
@[simp] theorem State.setPins_busMap (s : State) (v : List Pins) : (s.setPins v).busMap = s.busMap := rfl
@[simp] theorem State.setPins_pins (s : State) (v : List Pins) : (s.setPins v).pins = v := rfl
@[simp] theorem State.setPins_turns (s : State) (v : List Pins) : (s.setPins v).turns = s.turns := rfl
@[simp] theorem State.setTurns_pc (s : State) (v : List BusTurn) : (s.setTurns v).pc = s.pc := rfl
@[simp] theorem State.setTurns_psw (s : State) (v : List BusTurn) : (s.setTurns v).psw = s.psw := rfl
@[simp] theorem State.setTurns_config (s : State) (v : List BusTurn) : (s.setTurns v).config = s.config := rfl
@[simp] theorem State.setTurns_isp (s : State) (v : List BusTurn) : (s.setTurns v).isp = s.isp := rfl
@[simp] theorem State.setTurns_msp (s : State) (v : List BusTurn) : (s.setTurns v).msp = s.msp := rfl
@[simp] theorem State.setTurns_sp (s : State) (v : List BusTurn) : (s.setTurns v).sp = s.sp := rfl
@[simp] theorem State.setTurns_shad (s : State) (v : List BusTurn) : (s.setTurns v).shad = s.shad := rfl
@[simp] theorem State.setTurns_vb (s : State) (v : List BusTurn) : (s.setTurns v).vb = s.vb := rfl
@[simp] theorem State.setTurns_stb (s : State) (v : List BusTurn) : (s.setTurns v).stb = s.stb := rfl
@[simp] theorem State.setTurns_fault (s : State) (v : List BusTurn) : (s.setTurns v).fault = s.fault := rfl
@[simp] theorem State.setTurns_timer1 (s : State) (v : List BusTurn) : (s.setTurns v).timer1 = s.timer1 := rfl
@[simp] theorem State.setTurns_timer2 (s : State) (v : List BusTurn) : (s.setTurns v).timer2 = s.timer2 := rfl
@[simp] theorem State.setTurns_cache (s : State) (v : List BusTurn) : (s.setTurns v).cache = s.cache := rfl
@[simp] theorem State.setTurns_mem (s : State) (v : List BusTurn) : (s.setTurns v).mem = s.mem := rfl
@[simp] theorem State.setTurns_textTlb (s : State) (v : List BusTurn) : (s.setTurns v).textTlb = s.textTlb := rfl
@[simp] theorem State.setTurns_dataTlb (s : State) (v : List BusTurn) : (s.setTurns v).dataTlb = s.dataTlb := rfl
@[simp] theorem State.setTurns_textNpsr (s : State) (v : List BusTurn) : (s.setTurns v).textNpsr = s.textNpsr := rfl
@[simp] theorem State.setTurns_dataNpsr (s : State) (v : List BusTurn) : (s.setTurns v).dataNpsr = s.dataNpsr := rfl
@[simp] theorem State.setTurns_pfbStale (s : State) (v : List BusTurn) : (s.setTurns v).pfbStale = s.pfbStale := rfl
@[simp] theorem State.setTurns_icStale (s : State) (v : List BusTurn) : (s.setTurns v).icStale = s.icStale := rfl
@[simp] theorem State.setTurns_textMaps (s : State) (v : List BusTurn) : (s.setTurns v).textMaps = s.textMaps := rfl
@[simp] theorem State.setTurns_pfbQuads (s : State) (v : List BusTurn) : (s.setTurns v).pfbQuads = s.pfbQuads := rfl
@[simp] theorem State.setTurns_ahead (s : State) (v : List BusTurn) : (s.setTurns v).ahead = s.ahead := rfl
@[simp] theorem State.setTurns_t1Pending (s : State) (v : List BusTurn) : (s.setTurns v).t1Pending = s.t1Pending := rfl
@[simp] theorem State.setTurns_t2Pending (s : State) (v : List BusTurn) : (s.setTurns v).t2Pending = s.t2Pending := rfl
@[simp] theorem State.setTurns_nmiArmed (s : State) (v : List BusTurn) : (s.setTurns v).nmiArmed = s.nmiArmed := rfl
@[simp] theorem State.setTurns_tracePending (s : State) (v : List BusTurn) : (s.setTurns v).tracePending = s.tracePending := rfl
@[simp] theorem State.setTurns_writeFaults (s : State) (v : List BusTurn) : (s.setTurns v).writeFaults = s.writeFaults := rfl
@[simp] theorem State.setTurns_configEff (s : State) (v : List BusTurn) : (s.setTurns v).configEff = s.configEff := rfl
@[simp] theorem State.setTurns_vpEff (s : State) (v : List BusTurn) : (s.setTurns v).vpEff = s.vpEff := rfl
@[simp] theorem State.setTurns_recent (s : State) (v : List BusTurn) : (s.setTurns v).recent = s.recent := rfl
@[simp] theorem State.setTurns_ended (s : State) (v : List BusTurn) : (s.setTurns v).ended = s.ended := rfl
@[simp] theorem State.setTurns_foldable (s : State) (v : List BusTurn) : (s.setTurns v).foldable = s.foldable := rfl
@[simp] theorem State.setTurns_free (s : State) (v : List BusTurn) : (s.setTurns v).free = s.free := rfl
@[simp] theorem State.setTurns_busMap (s : State) (v : List BusTurn) : (s.setTurns v).busMap = s.busMap := rfl
@[simp] theorem State.setTurns_pins (s : State) (v : List BusTurn) : (s.setTurns v).pins = s.pins := rfl
@[simp] theorem State.setTurns_turns (s : State) (v : List BusTurn) : (s.setTurns v).turns = v := rfl

end Sys2Proof.Machine
end

