-- ==== Sys2Proof/Laws/Memory.lean ====
section
/-! SUPPORT. The laws of memory: what a byte reads as after a write, and that every operation keeps the canonical form. -/

namespace Sys2Proof.Machine

theorem Memory.read_erase (m : Memory) (a x : Nat) :
    Memory.read (m.erase a) x = if x = a then unlistedByte else m.read x := by
  induction m with
  | nil => simp [Memory.erase, Memory.read]
  | cons c rest ih =>
    by_cases h : c.1 = a
    · simp only [Memory.erase, h, if_true, ih, Memory.read]
      by_cases hx : x = a
      · simp [hx]
      · simp [hx, Ne.symm hx]
    · simp only [Memory.erase, h, if_false, Memory.read, ih]
      by_cases hc : c.1 = x
      · have hx : x ≠ a := fun e => h (hc.trans e)
        simp [hc, hx]
      · simp [hc]

theorem Memory.read_insert (m : Memory) (a x : Nat) (b : Byte) (h : ∀ c ∈ m, c.1 ≠ a) :
    Memory.read (m.insert a b) x = if x = a then b else m.read x := by
  induction m with
  | nil => simp [Memory.insert, Memory.read, eq_comm]
  | cons c rest ih =>
    have hr : ∀ d ∈ rest, d.1 ≠ a := fun d hd => h d (List.mem_cons_of_mem _ hd)
    have hc : c.1 ≠ a := h c List.mem_cons_self
    by_cases hlt : a < c.1
    · simp [Memory.insert, hlt, Memory.read, eq_comm]
    · simp only [Memory.insert, hlt, if_false, Memory.read, ih hr]
      by_cases hcx : c.1 = x
      · have hx : x ≠ a := fun e => hc (hcx.trans e)
        simp [hcx, hx]
      · simp [hcx]

theorem Memory.not_mem_erase (m : Memory) (a : Nat) : ∀ c ∈ m.erase a, c.1 ≠ a := by
  induction m with
  | nil => simp [Memory.erase]
  | cons c rest ih =>
    by_cases h : c.1 = a
    · simpa [Memory.erase, h] using ih
    · intro d hd
      simp only [Memory.erase, h, if_false, List.mem_cons] at hd
      rcases hd with rfl | hd
      · exact h
      · exact ih d hd

/-- What a byte reads as after a write: the written byte at its address, as before everywhere else. -/
theorem Memory.read_write (m : Memory) (a x : Nat) (b : Byte) :
    Memory.read (m.write a b) x = if x = a then b else m.read x := by
  unfold Memory.write
  by_cases hb : b = unlistedByte
  · simp [hb, Memory.read_erase]
  · simp only [hb, if_false]
    rw [Memory.read_insert _ _ _ _ (Memory.not_mem_erase m a), Memory.read_erase]
    by_cases hx : x = a <;> simp [hx]

theorem Memory.wfFrom_cons (c : Host.Cell) (rest : Memory) (lo : Nat) :
    Memory.wfFrom lo (c :: rest) = true ↔
      lo ≤ c.1 ∧ c.1 < 4294967296 ∧ c.2 ≠ unlistedByte ∧ Memory.wfFrom (c.1 + 1) rest = true := by
  simp [Memory.wfFrom, and_assoc]

theorem Memory.wfFrom_mono (m : Memory) {lo lo' : Nat} (h : lo' ≤ lo) (w : m.wfFrom lo = true) :
    m.wfFrom lo' = true := by
  cases m with
  | nil => rfl
  | cons c rest =>
    rw [Memory.wfFrom_cons] at w ⊢
    exact ⟨h.trans w.1, w.2⟩

theorem Memory.wfFrom_erase (m : Memory) (a lo : Nat) (w : m.wfFrom lo = true) : (m.erase a).wfFrom lo = true := by
  induction m generalizing lo with
  | nil => rfl
  | cons c rest ih =>
    rw [Memory.wfFrom_cons] at w
    have hr := ih _ w.2.2.2
    by_cases h : c.1 = a
    · simp only [Memory.erase, h, if_true]
      exact Memory.wfFrom_mono _ (by omega) hr
    · simp only [Memory.erase, h, if_false, Memory.wfFrom_cons]
      exact ⟨w.1, w.2.1, w.2.2.1, hr⟩

theorem Memory.wfFrom_insert (m : Memory) (a lo : Nat) (b : Byte) (w : m.wfFrom lo = true) (hlo : lo ≤ a)
    (ha : a < 4294967296) (hb : b ≠ unlistedByte) (hm : ∀ c ∈ m, c.1 ≠ a) : (m.insert a b).wfFrom lo = true := by
  induction m generalizing lo with
  | nil => simp [Memory.insert, Memory.wfFrom, hlo, ha, hb]
  | cons c rest ih =>
    have w' := w
    rw [Memory.wfFrom_cons] at w
    have hc : c.1 ≠ a := hm c List.mem_cons_self
    by_cases h : a < c.1
    · simp only [Memory.insert, h, if_true, Memory.wfFrom_cons]
      exact ⟨hlo, ha, hb, by omega, w.2.1, w.2.2.1, w.2.2.2⟩
    · simp only [Memory.insert, h, if_false, Memory.wfFrom_cons]
      exact ⟨w.1, w.2.1, w.2.2.1, ih _ w.2.2.2 (by omega) (fun d hd => hm d (List.mem_cons_of_mem _ hd))⟩

/-- A write below 2^32 keeps the canonical form. -/
theorem Memory.wf_write (m : Memory) (a : Nat) (b : Byte) (w : m.wf = true) (ha : a < 4294967296) :
    (m.write a b).wf = true := by
  unfold Memory.write Memory.wf at *
  by_cases hb : b = unlistedByte
  · simp only [hb, if_true]
    exact Memory.wfFrom_erase m a 0 w
  · simp only [hb, if_false]
    exact Memory.wfFrom_insert _ a 0 b (Memory.wfFrom_erase m a 0 w) (by omega) ha hb (Memory.not_mem_erase m a)

theorem byteKey_lt (a : Word) (k : Nat) : byteKey a k < 4294967296 := (a + BitVec.ofNat 32 k).isLt

/-- Writing bytes keeps the canonical form. -/
theorem Memory.wf_writeBE (m : Memory) (a : Word) (n : Nat) (v : Word) (w : m.wf = true) :
    (m.writeBE a n v).wf = true := by
  induction n generalizing v with
  | zero => exact w
  | succ k ih => exact Memory.wf_write _ _ _ (ih _) (byteKey_lt a k)

/-- A byte outside the bytes written reads as before. -/
theorem Memory.read_writeBE_other (m : Memory) (a : Word) (n : Nat) (v : Word) (x : Nat)
    (h : ∀ k, k < n → x ≠ byteKey a k) : (m.writeBE a n v).read x = m.read x := by
  induction n generalizing v with
  | zero => rfl
  | succ k ih =>
    rw [Memory.writeBE, Memory.read_write, if_neg (h k (by omega)), ih _ fun j hj => h j (by omega)]

/-- `busAnswer` of an empty map: RAM everywhere. -/
@[simp] theorem busAnswer_nil (pa : Word) : busAnswer [] pa = .ram := rfl

@[simp] theorem noteStale_mem (pa : Word) (s : State) : (noteStale pa s).mem = s.mem := by
  simp [noteStale]

@[simp] theorem physStore_mem (pa : Word) (n : Nat) (v : Word) (s : State) :
    (physStore pa n v s).mem = Memory.writeBE s.mem pa n v := by
  simp [physStore]

end Sys2Proof.Machine
end

