-- ==== Sys2Proof/Laws/Calm.lean ====
section
/-! SUPPORT. What the shared operations do in the ordinary situation (`calm`): each is one equation, with no fault and no
free choice, that says everything the operation can do there. -/

namespace Sys2Proof.Machine

@[simp] theorem Res.bind_ok {α β : Type} (a : α) (s : State) (f : α → State → Res β) :
    (Res.ok a s).bind f = f a s := rfl

@[simp] theorem Res.bind_trap {α β : Type} (t : Trap) (s : State) (f : α → State → Res β) :
    (Res.trap t s : Res α).bind f = .trap t s := rfl

@[simp] theorem Res.bind_halt {α β : Type} (e : Fault) (f : α → State → Res β) :
    (Res.halt e : Res α).bind f = .halt e := rfl

@[simp] theorem Res.bind_refuse {α β : Type} (e : Refusal) (f : α → State → Res β) :
    (Res.refuse e : Res α).bind f = .refuse e := rfl

@[simp] theorem raiseIf_false (t : Trap) (s : State) : raiseIf false t s = .ok () s := rfl

@[simp] theorem raiseIf_true (t : Trap) (s : State) : raiseIf true t s = .trap t s := rfl

@[simp] theorem settle_ok (u : Unit) (s : State) : settle (.ok u s) = .next s := rfl

@[simp] theorem settle_trap (t : Trap) (s : State) : settle (.trap t s) = takeTrap t s := rfl

@[simp] theorem settle_refuse (e : Refusal) : settle (.refuse e) = .refused e := rfl

theorem drawMix_same (mask a b : Word) (s : State) (h : a &&& mask = b &&& mask) : drawMix mask a b s = (a, s) := by
  simp [drawMix, h]

theorem harmless_iff (r : Recent) : r.harmless = true ↔
    r.flags = 0#32 ∧ r.subword = none ∧ r.shadMove = none ∧ r.lostTlb = [] ∧ r.lostNpsr = none := by
  simp [Recent.harmless, and_assoc]

theorem stalePsw_harmless (w : List Recent) (p : Word) (s : State) (h : w.all Recent.harmless = true) :
    stalePsw w p s = (p, s) := by
  induction w with
  | nil => rfl
  | cons r rest ih =>
    simp only [List.all_cons, Bool.and_eq_true] at h
    have hr := (harmless_iff r).1 h.1
    simp [stalePsw, hr.1, drawMix, ih h.2]

theorem mixedPsw_harmless (w : List Recent) (made v : Word) (s : State) (h : w.all Recent.harmless = true) :
    mixedPsw w made v s = (v, s) := by
  induction w generalizing made with
  | nil => rfl
  | cons r rest ih =>
    simp only [List.all_cons, Bool.and_eq_true] at h
    have hr := (harmless_iff r).1 h.1
    simp [mixedPsw, hr.1, drawMix, ih _ h.2]

theorem staleShad_harmless (w : List Recent) (v : Word) (s : State) (h : w.all Recent.harmless = true) :
    staleShad w v s = (v, s) := by
  induction w with
  | nil => rfl
  | cons r rest ih =>
    simp only [List.all_cons, Bool.and_eq_true] at h
    have hr := (harmless_iff r).1 h.1
    simp [staleShad, hr.2.2.1, ih h.2]

theorem staleSubword_harmless (w : List Recent) (who : Reader) (va : Word) (n : Nat) (v : Word) (s : State)
    (h : w.all Recent.harmless = true) : staleSubword w who va n v s = (v, s) := by
  induction w with
  | nil => rfl
  | cons r rest ih =>
    simp only [List.all_cons, Bool.and_eq_true] at h
    have hr := (harmless_iff r).1 h.1
    simp [staleSubword, hr.2.1, ih h.2]

theorem mixedShad_harmless (w : List Recent) (v : Word) (s : State) (h : w.all Recent.harmless = true) :
    mixedShad w v s = (v, s) := by
  induction w with
  | nil => rfl
  | cons r rest ih =>
    simp only [List.all_cons, Bool.and_eq_true] at h
    have hr := (harmless_iff r).1 h.1
    simp [mixedShad, hr.2.2.1, ih h.2]

theorem ramBus_iff (s : State) : ramBus s = true ↔ s.busMap = [] ∧ s.turns = [] := by simp [ramBus]

/-- A bus transaction with RAM everywhere and no input. -/
theorem busTurn_ram (locked : Bool) (pa : Word) (s : State) (h : ramBus s = true) :
    busTurn locked pa s = (some .ram, s) := by
  obtain ⟨hb, ht⟩ := (ramBus_iff s).1 h
  simp [busTurn, hb, ht]

theorem physRead_ram (locked : Bool) (e : Trap) (pa : Word) (s : State) (h : ramBus s = true) :
    physRead locked e pa s = .ok (Memory.readBE s.mem (wordAlign pa) 4) s := by
  simp [physRead, busTurn_ram _ _ _ h]

theorem takenWords_ram (n : Nat) (acc : Access) (pa : Word) (s : State) (h : ramBus s = true) :
    takenWords acc pa n s = .ok n s := by
  induction n generalizing acc pa with
  | zero => rfl
  | succ k ih => simp [takenWords, busTurn_ram _ _ _ h, ih]

theorem plain_iff (s : State) : plain s = true ↔
    s.vpEff = false ∧ ramBus s = true ∧ s.recent.all Recent.harmless = true := by
  simp [plain, and_assoc]

theorem calm_iff (s : State) : calm s = true ↔ plain s = true ∧ usable s = true := by
  simp [calm]

/-- A register reads as it stands when no hazard is in flight. -/
theorem readRegister_state (r : Reg) (s : State) (h : s.recent.all Recent.harmless = true) :
    (readRegister r s).2 = s := by
  cases r <;> simp [readRegister, stalePsw_harmless _ _ _ h, staleShad_harmless _ _ _ h]

theorem translate_physical (k : Kind) (user : Bool) (va : Word) (s : State) (h : s.vpEff = false) :
    translate k user va s = .ok va s := by
  simp [translate, translateIn, resolve, h, Mapping.address]

theorem translateIn_physical (locked : Bool) (k : Kind) (user : Bool) (va : Word) (s : State) (h : s.vpEff = false) :
    translateIn locked k user va s = .ok va s := by
  simp [translateIn, resolve, h, Mapping.address]

/-- Where no read shows, the prefetch unit does nothing between accesses. -/
theorem readAhead_hidden (locked : Bool) (s : State) (h : readsShow s = false) : readAhead locked s = .ok () s := by
  simp [readAhead, h]

theorem readsShow_ram (s : State) (hv : s.vpEff = false) (hb : ramBus s = true) : readsShow s = false := by
  obtain ⟨h1, h2⟩ := (ramBus_iff s).1 hb
  simp [readsShow, hv, h1, h2]

/-- A unit with nothing to do does nothing between accesses. -/
theorem readAhead_idle (locked : Bool) (s : State) (h : mayPrefetch s = false) : readAhead locked s = .ok () s := by
  simp [readAhead, prefetch, h]

theorem dataAddress_idle (locked : Bool) (k : Kind) (user : Bool) (va : Word) (s : State) (hv : s.vpEff = false)
    (h : mayPrefetch s = false) : dataAddress locked k user va s = .ok va s := by
  simp [dataAddress, readAhead_idle _ _ h, translateIn_physical _ _ _ _ _ hv]

theorem dataAddress_physical (locked : Bool) (k : Kind) (user : Bool) (va : Word) (s : State) (hv : s.vpEff = false)
    (hb : ramBus s = true) : dataAddress locked k user va s = .ok va s := by
  simp [dataAddress, readAhead_hidden _ _ (readsShow_ram s hv hb), translateIn_physical _ _ _ _ _ hv]

theorem flushTarget_physical (va : Word) (s : State) (hv : s.vpEff = false) : flushTarget va s = .ok (some va) s := by
  simp [flushTarget, flushAddress, hv]

theorem checkAccess_ok (va : Word) (n : Nat) (s : State) (ha : aligned va n = true) :
    checkAccess va n s = .ok () s := by
  simp [checkAccess, ha]

theorem useCache_reliable (acc : Access) (va : Word) (s : State) (hu : usable s = true)
    (h : acc.shaky = true → hits va s = false) : useCache acc va s = (hits va s, s) := by
  have hw : (configSC s.configEff && !windowOk s) = false := by
    simp only [usable] at hu
    revert hu; cases configSC s.configEff <;> cases windowOk s <;> simp
  simp only [useCache, hw, Bool.false_eq_true, if_false]
  cases hh : hits va s <;> simp
  cases hs : acc.shaky <;> simp
  rw [h hs] at hh
  exact absurd hh (by simp)

/-- A data read with physical addressing (20_memory.md R70). -/
theorem memRead_calm (acc : Access) (va : Word) (n : Nat) (s : State) (hv : s.vpEff = false) (hb : ramBus s = true)
    (hu : usable s = true) (hs : acc.shaky = true → hits va s = false) (ha : aligned va n = true) :
    memRead acc va n s = .ok (load n va s) s := by
  rw [memRead, checkAccess_ok va n s ha]
  simp only [Res.bind_ok, useCache_reliable acc va s hu hs, load]
  cases h : hits va s <;> simp [dataAddress_physical _ _ _ _ _ hv hb, readAhead_hidden _ _ (readsShow_ram s hv hb), physRead_ram _ _ _ _ hb]

/-- Where a data write lands with physical addressing (20_memory.md R70). -/
def targetOf (va : Word) (s : State) : Target := if hits va s then .cell va else .phys va

/-- The same, when the bus has answered. -/
def grantOf (va : Word) (s : State) : Grant := if hits va s then .cell va else .phys va 1

theorem prepWrite_calm (acc : Access) (va : Word) (n : Nat) (s : State) (hv : s.vpEff = false) (hb : ramBus s = true)
    (hu : usable s = true) (hs : acc.shaky = true → hits va s = false) (ha : aligned va n = true) :
    prepWrite acc va n s = .ok (targetOf va s) s := by
  rw [prepWrite, checkAccess_ok va n s ha]
  simp only [Res.bind_ok, useCache_reliable acc va s hu hs, targetOf]
  cases h : hits va s <;> simp [dataAddress_physical _ _ _ _ _ hv hb]

theorem claim_calm (acc : Access) (va : Word) (s : State) (hv : s.vpEff = false) (hb : ramBus s = true) :
    claim acc (targetOf va s) 1 s = .ok (grantOf va s) s := by
  unfold targetOf grantOf
  cases h : hits va s <;> simp [claim, readAhead_hidden _ _ (readsShow_ram s hv hb), takenWords_ram _ _ _ _ hb]

/-- The store at that target. -/
theorem commit_calm (va v : Word) (n : Nat) (s : State) : commit (grantOf va s) n v s = store n va v s := by
  unfold grantOf
  cases h : hits va s <;> simp [commit, store, h]

theorem memWrite_calm (acc : Access) (va : Word) (n : Nat) (v : Word) (s : State) (hv : s.vpEff = false)
    (hb : ramBus s = true) (hu : usable s = true) (hs : acc.shaky = true → hits va s = false)
    (ha : aligned va n = true) : memWrite acc va n v s = .ok () (store n va v s) := by
  simp [memWrite, prepWrite_calm acc va n s hv hb hu hs ha, claim_calm acc va s hv hb, commit_calm]

theorem firm_shaky (s : State) (va : Word) (h : firm va s = true) :
    (stackAccess s).shaky = true → hits va s = false := by
  intro hs
  have hc : pswCSP s.psw = false := by simpa [stackAccess] using hs
  simpa [firm, hc] using h

theorem plain_shaky (s : State) (va : Word) : (plainAccess s).shaky = true → hits va s = false := by
  intro h; simp [plainAccess] at h

/-- The place an operand is at in the ordinary situation. -/
def placeOf (px : Bool) (size : Nat) (o : Operand) (s : State) : Place :=
  match modeKind px o.mode with
  | some .absolute => .memory (plainAccess s) (o.field.address s) size (modeSigned o.mode)
  | some .stack => .memory (stackAccess s) (stackAddress o s) size (modeSigned o.mode)
  | some .indirect => .memory (plainAccess s) (load 4 (stackAddress o s) s) size (modeSigned o.mode)
  | some .register => .register ((Reg.ofField o.field.value).getD .id)
  | _ => .constant o.field.value

/-- Finding an operand's place. -/
theorem locate_calm (px : Bool) (size : Nat) (o : Operand) (s : State) (hc : calm s = true)
    (hr : operandReady px size o s = true) : locate px size o s = .ok (placeOf px size o s) s := by
  obtain ⟨hp, hu⟩ := (calm_iff s).1 hc
  obtain ⟨hv, hb, hw⟩ := (plain_iff s).1 hp
  cases hk : modeKind px o.mode with
  | none => simp [operandReady, hk] at hr
  | some k =>
    cases k with
    | absolute => simp [locate, placeOf, hk]
    | stack => simp [locate, placeOf, hk]
    | indirect =>
      simp only [operandReady, hk, operandAddress, Bool.and_eq_true] at hr
      simp [locate, placeOf, hk, memRead_calm _ _ _ _ hv hb hu (firm_shaky s _ hr.1.2) hr.1.1, hr.2]
    | immediate => simp [locate, placeOf, hk]
    | register =>
      simp only [operandReady, hk] at hr
      obtain ⟨r, hr⟩ := Option.isSome_iff_exists.1 hr
      simp [locate, placeOf, hk, hr]

/-- An indirect operand whose pointer can be read and whose target is misaligned raises AlignmentFault. -/
theorem locate_indirectOff (px : Bool) (size : Nat) (o : Operand) (s : State) (hc : calm s = true)
    (hs : staticAligned px size o s = true) (h : IndirectOff px size o s) :
    locate px size o s = .trap .alignmentFault s := by
  obtain ⟨hk, hf, ha⟩ := h
  obtain ⟨hp, hu⟩ := (calm_iff s).1 hc
  obtain ⟨hv, hb, -⟩ := (plain_iff s).1 hp
  simp only [staticAligned, hk] at hs
  simp only [operandAddress, hk] at ha
  simp [locate, hk, memRead_calm _ _ _ _ hv hb hu (firm_shaky s _ hf) hs, ha]

/-- The alignment that is known without reading memory. -/
theorem staticAligned_ready (px : Bool) (size : Nat) (o : Operand) (s : State) (hr : operandReady px size o s = true) :
    staticAligned px size o s = true := by
  unfold staticAligned
  cases hk : modeKind px o.mode with
  | none => rfl
  | some k => cases k <;> simp_all [operandReady, operandAddress]

theorem legalMode_ready (px : Bool) (size : Nat) (o : Operand) (s : State) (hr : operandReady px size o s = true) :
    legalMode px o.mode = true := by
  cases hk : modeKind px o.mode <;> simp_all [operandReady, legalMode]

theorem modeKind_register (px : Bool) (m : BitVec 4) : modeKind px m = some .register ↔ px = true ∧ m = 0x7#4 := by
  revert px m; decide

theorem modeKind_immediate (px : Bool) (m : BitVec 4) : modeKind px m = some .immediate ↔ m = 0xF#4 := by
  revert px m; decide

theorem missingRegister_ready (px : Bool) (size : Nat) (o : Operand) (s : State)
    (hr : operandReady px size o s = true) : missingRegister px o = false := by
  unfold missingRegister
  cases h : isRegister px o
  · rfl
  · have h' : px = true ∧ o.mode = 0x7#4 := by simpa [isRegister] using h
    have hk := (modeKind_register px o.mode).2 h'
    simp only [operandReady, hk] at hr
    simpa using hr

/-- The value at an operand's place. -/
theorem readPlace_calm (who : Reader) (px : Bool) (o : Operand) (s : State) (hc : calm s = true)
    (hr : operandReady px (modeSize px o.mode) o s = true) :
    readPlace who (placeOf px (modeSize px o.mode) o s) s = .ok (operandValue px o s) s := by
  obtain ⟨hp, hu⟩ := (calm_iff s).1 hc
  obtain ⟨hv, hb, hw⟩ := (plain_iff s).1 hp
  cases hk : modeKind px o.mode with
  | none => simp [operandReady, hk] at hr
  | some k =>
    have hreg : k ≠ .register → operandRegister px o = none := by
      intro hne
      have : isRegister px o = false := by
        cases h : isRegister px o
        · rfl
        · have := (modeKind_register px o.mode).2 (by simpa [isRegister] using h)
          rw [hk] at this
          exact absurd (Option.some.inj this) hne
      simp [operandRegister, this]
    have himm : k ≠ .immediate → isImmediate o = false := by
      intro hne
      cases h : isImmediate o
      · rfl
      · have := (modeKind_immediate px o.mode).2 (by simpa [isImmediate] using h)
        rw [hk] at this
        exact absurd (Option.some.inj this) hne
    cases k with
    | absolute =>
      have ha : aligned (o.field.address s) (modeSize px o.mode) = true := by
        simpa [operandReady, hk, operandAddress] using hr
      simp [placeOf, hk, readPlace, memRead_calm _ _ _ _ hv hb hu (plain_shaky s _) ha,
        staleSubword_harmless _ _ _ _ _ _ hw, operandValue, hreg, himm, operandAddress]
    | stack =>
      have ⟨ha, hf⟩ : aligned (stackAddress o s) (modeSize px o.mode) = true ∧ firm (stackAddress o s) s = true := by
        simpa [operandReady, hk, operandAddress] using hr
      simp [placeOf, hk, readPlace, memRead_calm _ _ _ _ hv hb hu (firm_shaky s _ hf) ha,
        staleSubword_harmless _ _ _ _ _ _ hw, operandValue, hreg, himm, operandAddress]
    | indirect =>
      simp only [operandReady, hk, operandAddress, Bool.and_eq_true] at hr
      simp [placeOf, hk, readPlace, memRead_calm _ _ _ _ hv hb hu (plain_shaky s _) hr.2,
        staleSubword_harmless _ _ _ _ _ _ hw, operandValue, hreg, himm, operandAddress]
    | immediate =>
      have : isImmediate o = true := by simpa [isImmediate] using (modeKind_immediate px o.mode).1 hk
      simp [placeOf, hk, readPlace, operandValue, this]
    | register =>
      have h := (modeKind_register px o.mode).1 hk
      have hi : isImmediate o = false := by simp [isImmediate, h.2]
      simp only [operandReady, hk] at hr
      obtain ⟨r, hr⟩ := Option.isSome_iff_exists.1 hr
      have : operandRegister px o = some r := by simp [operandRegister, isRegister, h, hr]
      simp [placeOf, hk, readPlace, operandValue, hi, this, hr, readRegister_state r s hw]

/-- The two operands' places. -/
theorem openForm_calm (px : Bool) (u : DstUse) (f : Form) (s : State) (hc : calm s = true)
    (hs : operandReady px (modeSize px f.src.mode) f.src s = true)
    (hd : operandReady px (modeSize px f.dst.mode) f.dst s = true)
    (hw : u.writing = true → isImmediate f.dst = false) (h1 : u.reading = true → oneRegister px f = true) :
    openForm px u f s = .ok (placeOf px (modeSize px f.src.mode) f.src s,
      placeOf px (modeSize px f.dst.mode) f.dst s) s := by
  have hform : checkForm px u f s = .ok () s := by
    have ha : (u.writing && isImmediate f.dst) = false := by
      cases h : u.writing <;> simp [hw, h]
    have hb : (isRegister px f.src && isRegister px f.dst && u.reading) = false := by
      cases h : u.reading
      · simp
      · have := h1 h
        revert this; unfold oneRegister
        cases isRegister px f.src <;> cases isRegister px f.dst <;> simp
    simp [checkForm, legalMode_ready px _ _ _ hs, legalMode_ready px _ _ _ hd, ha, hb,
      missingRegister_ready px _ _ _ hs, missingRegister_ready px _ _ _ hd]
  simp [openForm, hform, staticAligned_ready _ _ _ _ hs, staticAligned_ready _ _ _ _ hd,
    locate_calm _ _ _ _ hc hs, locate_calm _ _ _ _ hc hd]

/-- The access of a store to a place. -/
def storeAccess (il : Bool) (p : Place) (s : State) : Access :=
  match p with
  | .memory acc _ _ _ => if il then acc.interlocked else acc
  | _ => plainAccess s

/-- The destination of a store to an operand's place. -/
def destOf (il px : Bool) (o : Operand) (s : State) : Dest :=
  match operandRegister px o with
  | some r => .register r
  | none =>
    .memory (storeAccess il (placeOf px (modeSize px o.mode) o s) s) (targetOf (operandAddress px o s) s)
      (modeSize px o.mode)

/-- The same, when the bus has answered. -/
def readyOf (px : Bool) (o : Operand) (s : State) : Ready :=
  match operandRegister px o with
  | some r => .register r
  | none => .memory (grantOf (operandAddress px o s) s) (modeSize px o.mode)

theorem operandRegister_ready (px : Bool) (n : Nat) (o : Operand) (s : State) (hr : operandReady px n o s = true) :
    (∃ r, modeKind px o.mode = some .register ∧ Reg.ofField o.field.value = some r ∧ operandRegister px o = some r) ∨
    (∃ k, modeKind px o.mode = some k ∧ k ≠ .register ∧ isRegister px o = false ∧ operandRegister px o = none) := by
  cases h : isRegister px o
  · right
    cases hk : modeKind px o.mode with
    | none => simp [operandReady, hk] at hr
    | some k =>
      refine ⟨k, rfl, ?_, rfl, by simp [operandRegister, h]⟩
      rintro rfl
      have := (modeKind_register px o.mode).1 hk
      simp [isRegister, this] at h
  · left
    have h' : px = true ∧ o.mode = 0x7#4 := by simpa [isRegister] using h
    have hk := (modeKind_register px o.mode).2 h'
    simp only [operandReady, hk] at hr
    obtain ⟨r, hr⟩ := Option.isSome_iff_exists.1 hr
    exact ⟨r, hk, hr, by simp [operandRegister, h, hr]⟩

/-- The checks of a store to an operand. -/
theorem prepPlace_calm (il px : Bool) (o : Operand) (s : State) (hc : calm s = true)
    (hr : operandReady px (modeSize px o.mode) o s = true) (hi : isImmediate o = false) :
    prepPlace il (placeOf px (modeSize px o.mode) o s) s = .ok (destOf il px o s) s := by
  obtain ⟨hp, hu⟩ := (calm_iff s).1 hc
  obtain ⟨hv, hb, -⟩ := (plain_iff s).1 hp
  rcases operandRegister_ready px _ o s hr with ⟨r, hk, hf, ho⟩ | ⟨k, hk, hne, -, ho⟩
  · simp [placeOf, hk, hf, prepPlace, destOf, ho]
  · have sh : ∀ acc : Access, (if il then acc.interlocked else acc).shaky = acc.shaky := by
      intro acc; cases il <;> rfl
    cases k with
    | absolute =>
      have ha : aligned (o.field.address s) (modeSize px o.mode) = true := by
        simpa [operandReady, hk, operandAddress] using hr
      have := prepWrite_calm (if il then (plainAccess s).interlocked else plainAccess s) _ _ s hv hb hu
        (by rw [sh]; exact plain_shaky s _) ha
      simp [placeOf, hk, prepPlace, this, destOf, storeAccess, ho, operandAddress]
    | stack =>
      have ⟨ha, hf⟩ : aligned (stackAddress o s) (modeSize px o.mode) = true ∧ firm (stackAddress o s) s = true := by
        simpa [operandReady, hk, operandAddress] using hr
      have := prepWrite_calm (if il then (stackAccess s).interlocked else stackAccess s) _ _ s hv hb hu
        (by rw [sh]; exact firm_shaky s _ hf) ha
      simp [placeOf, hk, prepPlace, this, destOf, storeAccess, ho, operandAddress]
    | indirect =>
      simp only [operandReady, hk, operandAddress, Bool.and_eq_true] at hr
      have := prepWrite_calm (if il then (plainAccess s).interlocked else plainAccess s) _ _ s hv hb hu
        (by rw [sh]; exact plain_shaky s _) hr.2
      simp [placeOf, hk, prepPlace, this, destOf, storeAccess, ho, operandAddress]
    | immediate =>
      have : isImmediate o = true := by simpa [isImmediate] using (modeKind_immediate px o.mode).1 hk
      simp [this] at hi
    | register => exact absurd rfl hne

/-- Its bus transaction. -/
theorem claimDest_calm (il px : Bool) (o : Operand) (s : State) (hc : calm s = true) :
    claimDest (destOf il px o s) s = .ok (readyOf px o s) s := by
  obtain ⟨hv, hb, -⟩ := (plain_iff s).1 ((calm_iff s).1 hc).1
  unfold destOf readyOf
  cases operandRegister px o <;> simp [claimDest, claim_calm _ _ _ hv hb]

/-- The store to an operand. -/
theorem storeDest_calm (px : Bool) (o : Operand) (v : Word) (s : State) :
    storeDest (readyOf px o s) v s = storeOperand px o v s s := by
  unfold readyOf storeOperand
  cases operandRegister px o <;> simp [storeDest, commit_calm]

theorem privileged_calm (px : Bool) (n : Nat) (o : Operand) (s : State) (hr : operandReady px n o s = true) :
    (placeOf px n o s).privileged s = (isRegister px o && pswX s.psw) := by
  rcases operandRegister_ready px _ o s hr with ⟨r, hk, hf, ho⟩ | ⟨k, hk, hne, hi, ho⟩
  · have h := (modeKind_register px o.mode).1 hk
    have hi : isRegister px o = true := by simp [isRegister, h]
    simp [placeOf, hk, Place.privileged, hi]
  · cases k <;> simp_all [placeOf, Place.privileged]

end Sys2Proof.Machine
end

