-- ==== Sys2Proof/Laws/Dispatch.lean ====
section
/-! SUPPORT. What every arm of the dispatch does: the operation that the instruction parses to. -/

namespace Sys2Proof.Machine

/-- An instruction that parses does what its operation does, then its event, if any, is taken. -/
theorem exec_of_parse {i : Instr} {px : Bool} {v : View} (s : State) (h : parse i = some (px, v)) :
    exec i s = settle (v.run px s) := by
  cases i with
  | cpuWide inner =>
    show settle (runPrefixed inner s) = _
    unfold runPrefixed
    unfold parse at h
    cases hw : inner.isWide <;> cases hv : viewOf inner <;> simp_all
  | cpuShort next => cases h
  | _ => cases h; rfl

/-- What does not parse (CPU before a one-parcel instruction) is refused. -/
theorem exec_of_no_parse {i : Instr} (s : State) (h : parse i = none) : exec i s = .refused .cpuBeforeOneParcel := by
  cases i with
  | cpuWide inner =>
    show settle (runPrefixed inner s) = _
    unfold runPrefixed
    unfold parse at h
    cases hw : inner.isWide <;> cases hv : viewOf inner <;> simp_all <;> rfl
  | cpuShort next => rfl
  | _ => cases h

end Sys2Proof.Machine
end

