-- ==== Sys2Proof/Laws/Leaves.lean ====
section
/-! SUPPORT. What holds of the states that parts of an instruction leave (`Res.Leaves`), and what the prefetch unit
leaves: every property that its translations, its bus reads and its own notes keep (`TextReads`). -/

namespace Sys2Proof.Machine

/-- What holds of the state a part of an instruction leaves, whether it completes or raises an event. -/
def Res.Leaves {α : Type} (P : State → Prop) (r : Res α) : Prop :=
  match r with
  | .ok _ s => P s
  | .trap _ s => P s
  | _ => True

theorem Res.Leaves.bind {α β : Type} {P : State → Prop} {r : Res α} {f : α → State → Res β} (h : r.Leaves P)
    (hf : ∀ a s, P s → (f a s).Leaves P) : (r.bind f).Leaves P := by
  cases r with
  | ok a s => exact hf a s h
  | trap t s => exact h
  | halt e => trivial
  | refuse e => trivial

theorem Res.Leaves.after {α : Type} {P : State → Prop} {r : Res α} {f : State → State} (h : r.Leaves P)
    (hf : ∀ s, P s → P (f s)) : (r.after f).Leaves P := by
  cases r with
  | ok a s => exact hf s h
  | trap t s => exact hf s h
  | halt e => trivial
  | refuse e => trivial

theorem Res.Leaves.onTrap {α : Type} {P : State → Prop} {r : Res α} {f : State → State} (h : r.Leaves P)
    (hf : ∀ s, P s → P (f s)) : (r.onTrap f).Leaves P := by
  cases r with
  | ok a s => exact h
  | trap t s => exact hf s h
  | halt e => trivial
  | refuse e => trivial

theorem Res.Leaves.ite {α : Type} {P : State → Prop} {c : Prop} [Decidable c] {a b : Res α} (ha : a.Leaves P)
    (hb : b.Leaves P) : (if c then a else b).Leaves P := by
  split
  · exact ha
  · exact hb

theorem endedBy_leaves {α : Type} {P : State → Prop} {s : State} {r : Res α} (hs : P s) (h : r.Leaves P) (hreset : Bool) :
    (endedBy hreset s r).Leaves P := by
  unfold endedBy
  split
  · split
    · exact hs
    · trivial
  · exact h

theorem dropped_leaves {α : Type} {P : State → Prop} {r : Res α} (h : r.Leaves P) : (dropped r).Leaves P := by
  unfold dropped
  split <;> exact h

/-- What single bus reads keep, the read of a double word of text keeps. -/
theorem readLine_leaves {P : State → Prop} (hp : ∀ l t pa s, P s → (physRead l t pa s).Leaves P) (pa : Word) {s : State}
    (h : P s) : (readLine pa s).Leaves P := by
  refine (hp _ _ _ _ h).bind fun _ u h => ?_
  have h2 := hp true .ioBusFault (pairAlign pa + 4#32) u h
  dsimp only
  generalize physRead true .ioBusFault (pairAlign pa + 4#32) u = r at h2
  cases r with
  | trap t w => cases t <;> first | exact h2 | (dsimp only; split <;> exact h2)
  | _ => exact h2

/-- A property that no text read ahead can end. -/
structure TextReads (P : State → Prop) : Prop where
  free     : ∀ s v, P s → P (s.setFree v)
  textMaps : ∀ s v, P s → P (s.setTextMaps v)
  pfbQuads : ∀ s v, P s → P (s.setPfbQuads v)
  ahead    : ∀ s v, P s → P (s.setAhead v)
  resolve  : ∀ va s, P s → (resolve false .text (pswX s.psw) va s).Leaves P
  readLine : ∀ pa s, P s → (readLine pa s).Leaves P

/-- The parcels of an instruction, from a supply that keeps `P`. -/
theorem fetchParcels_leaves {P : State → Prop} {get : Supply} (hg : ∀ va l s, P s → (get va l s).Leaves P) (n : Nat)
    (va : Word) (l : Option TextLine) {s : State} (h : P s) : (fetchParcels get va n l s).Leaves P := by
  induction n generalizing va l s with
  | zero => exact h
  | succ k ih => exact (hg _ _ _ h).bind fun _ _ h => (ih _ _ h).bind fun _ _ h => h

theorem fetchFrom_leaves {P : State → Prop} {get : Supply} (hg : ∀ va l s, P s → (get va l s).Leaves P) (va : Word)
    {s : State} (h : P s) : (fetchFrom get va s).Leaves P := by
  refine (hg _ _ _ h).bind fun p0 s h => ?_
  split
  · exact (hg _ _ _ h).bind fun _ _ h => (fetchParcels_leaves hg _ _ _ h).bind fun _ _ h => h
  · exact (fetchParcels_leaves hg _ _ _ h).bind fun _ _ h => h

theorem icParcel_leaves {P : State → Prop} (hf : ∀ s v, P s → P (s.setFree v)) (va : Word) (l : Option TextLine)
    (s : State) (h : P s) : (icParcel va l s).Leaves P := by
  unfold icParcel
  dsimp only
  split
  · exact h
  · exact hf _ _ h

theorem fetchAt_leaves {P : State → Prop} {get : Supply} (hf : ∀ s v, P s → P (s.setFree v))
    (hg : ∀ va l s, P s → (get va l s).Leaves P) (va : Word) {s : State} (h : P s) : (fetchAt get va s).Leaves P := by
  unfold fetchAt
  split
  · exact fetchFrom_leaves hg _ h
  · have hb : P (drawBit s).2 := hf _ _ h
    dsimp only
    split
    · have hi := fetchFrom_leaves (icParcel_leaves hf) va hb
      split
      · rename_i e; rw [e] at hi; exact hi
      · exact fetchFrom_leaves hg _ hb
    · exact fetchFrom_leaves hg _ hb

namespace TextReads

variable {P : State → Prop} (L : TextReads P) {s : State}
include L

theorem heldParcel (pa : Word) (h : P s) : P (heldParcel pa s).2 := by
  unfold Machine.heldParcel
  dsimp only
  split
  · exact h
  · exact L.free _ _ h

theorem noteText (va : Word) (m : Mapping) (h : P s) : P (noteText va m s) := by
  unfold Machine.noteText
  dsimp only
  split
  · exact L.pfbQuads _ _ (L.textMaps _ _ h)
  · exact L.textMaps _ _ h

theorem readPiece (hreset : Bool) (pa : Word) (h : P s) : (readPiece hreset pa s).Leaves P := by
  have hl : ∀ a s, P s → (endedBy hreset s (Machine.readLine a s)).Leaves P :=
    fun a s h => endedBy_leaves h (L.readLine a s h) hreset
  have ho : ∀ (c : Prop) [Decidable c] s, P s →
      (if c then dropped (endedBy hreset s (Machine.readLine (pa ^^^ 8#32) s)) else .ok () s).Leaves P :=
    fun c _ s h => .ite (dropped_leaves (hl _ s h)) h
  unfold Machine.readPiece
  dsimp only
  refine (ho _ _ ?_).bind fun _ s h => (hl _ s h).bind fun _ s h => (ho _ s h).bind fun _ _ h => h
  split
  · exact L.free _ _ h
  · exact h

theorem busParcel (hreset : Bool) (pa : Word) (l : Option TextLine) (h : P s) : (busParcel hreset pa l s).Leaves P := by
  unfold Machine.busParcel
  split
  · exact h
  · exact (L.readPiece _ _ h).bind fun _ _ h => h

theorem aheadParcel (hreset : Bool) (va : Word) (l : Option TextLine) (h : P s) :
    (aheadParcel hreset va l s).Leaves P := by
  unfold Machine.aheadParcel
  refine (endedBy_leaves h (L.resolve _ s h) hreset).bind fun m s h => ?_
  have hh := L.heldParcel (m.address (textAlign va)) h
  dsimp only
  split
  · exact L.noteText _ _ hh
  · split
    · exact (L.busParcel _ _ _ hh).bind fun _ _ h => L.noteText _ _ h
    · exact hh

theorem prefetchAt (hreset : Bool) (a : Word) (h : P s) : (prefetchAt hreset a s).Leaves P := by
  refine dropped_leaves ((fetchAt_leaves L.free (fun _ _ _ => L.aheadParcel hreset _ _) a (L.ahead _ none h)).bind
    fun ps s h => ?_)
  split
  · exact L.ahead _ _ h
  · exact h

theorem prefetchMany (hreset : Bool) (n : Nat) (h : P s) : (prefetchMany hreset n s).Leaves P := by
  induction n generalizing s with
  | zero => exact h
  | succ k ih =>
    unfold Machine.prefetchMany
    split
    · exact h
    · exact (L.prefetchAt _ _ h).bind fun _ _ h => ih h

/-- What the prefetch unit leaves. -/
theorem prefetch (hreset : Bool) (h : P s) : (prefetch hreset s).Leaves P := by
  unfold Machine.prefetch
  split
  · refine L.prefetchMany _ _ (L.free _ _ ?_)
    split
    · exact L.ahead _ _ (L.free _ _ h)
    · exact L.free _ _ h
  · exact h

/-- What it leaves before an access of an instruction. -/
theorem readAhead (locked : Bool) (h : P s) : (readAhead locked s).Leaves P := by
  unfold Machine.readAhead
  split
  · exact L.prefetch _ h
  · exact h

end TextReads

end Sys2Proof.Machine
end

