-- ==== Sys2Proof/Laws/Keep.lean ====
section
/-! SUPPORT. Every shared operation keeps the invariant, in every state. -/

namespace Sys2Proof.Machine

theorem Inv.setPc {s : State} (h : Inv s) {v : Word} (hv : textAlign v = v) : Inv (s.setPc v) :=
  ⟨h.memory, hv, h.psw, h.config, h.configEff, h.isp, h.msp, h.sp, h.shad, h.vb, h.stb, h.window, h.flags⟩

theorem Inv.setPsw {s : State} (h : Inv s) {v : Word} (hv : v &&& pswMask = v) : Inv (s.setPsw v) :=
  ⟨h.memory, h.pc, hv, h.config, h.configEff, h.isp, h.msp, h.sp, h.shad, h.vb, h.stb, h.window, h.flags⟩

theorem Inv.setConfig {s : State} (h : Inv s) {v : Word} (hv : v &&& configMask = v) : Inv (s.setConfig v) :=
  ⟨h.memory, h.pc, h.psw, hv, h.configEff, h.isp, h.msp, h.sp, h.shad, h.vb, h.stb, h.window, h.flags⟩

theorem Inv.setIsp {s : State} (h : Inv s) {v : Word} (hv : quadAlign v = v) : Inv (s.setIsp v) :=
  ⟨h.memory, h.pc, h.psw, h.config, h.configEff, hv, h.msp, h.sp, h.shad, h.vb, h.stb, h.window, h.flags⟩

theorem Inv.setMsp {s : State} (h : Inv s) {v : Word} (hv : quadAlign v = v) : Inv (s.setMsp v) :=
  ⟨h.memory, h.pc, h.psw, h.config, h.configEff, h.isp, hv, h.sp, h.shad, h.vb, h.stb, h.window, h.flags⟩

theorem Inv.setSp {s : State} (h : Inv s) {v : Word} (hv : quadAlign v = v) : Inv (s.setSp v) :=
  ⟨h.memory, h.pc, h.psw, h.config, h.configEff, h.isp, h.msp, hv, h.shad, h.vb, h.stb, h.window, h.flags⟩

theorem Inv.setShad {s : State} (h : Inv s) {v : Word} (hv : quadAlign v = v) : Inv (s.setShad v) :=
  ⟨h.memory, h.pc, h.psw, h.config, h.configEff, h.isp, h.msp, h.sp, hv, h.vb, h.stb, h.window, h.flags⟩

theorem Inv.setVb {s : State} (h : Inv s) {v : Word} (hv : quadAlign v = v) : Inv (s.setVb v) :=
  ⟨h.memory, h.pc, h.psw, h.config, h.configEff, h.isp, h.msp, h.sp, h.shad, hv, h.stb, h.window, h.flags⟩

theorem Inv.setStb {s : State} (h : Inv s) {v : Word} (hv : v &&& stbMask = v) : Inv (s.setStb v) :=
  ⟨h.memory, h.pc, h.psw, h.config, h.configEff, h.isp, h.msp, h.sp, h.shad, h.vb, hv, h.window, h.flags⟩

theorem Inv.setFault {s : State} (h : Inv s) (v : Word) : Inv (s.setFault v) :=
  ⟨h.memory, h.pc, h.psw, h.config, h.configEff, h.isp, h.msp, h.sp, h.shad, h.vb, h.stb, h.window, h.flags⟩

theorem Inv.setTimer1 {s : State} (h : Inv s) (v : Word) : Inv (s.setTimer1 v) :=
  ⟨h.memory, h.pc, h.psw, h.config, h.configEff, h.isp, h.msp, h.sp, h.shad, h.vb, h.stb, h.window, h.flags⟩

theorem Inv.setTimer2 {s : State} (h : Inv s) (v : Word) : Inv (s.setTimer2 v) :=
  ⟨h.memory, h.pc, h.psw, h.config, h.configEff, h.isp, h.msp, h.sp, h.shad, h.vb, h.stb, h.window, h.flags⟩

theorem Inv.setCache {s : State} (h : Inv s) (v : Vector Word 64) : Inv (s.setCache v) :=
  ⟨h.memory, h.pc, h.psw, h.config, h.configEff, h.isp, h.msp, h.sp, h.shad, h.vb, h.stb, h.window, h.flags⟩

theorem Inv.setMem {s : State} (h : Inv s) {v : List Host.Cell} (hv : Memory.wf v = true) : Inv (s.setMem v) :=
  ⟨hv, h.pc, h.psw, h.config, h.configEff, h.isp, h.msp, h.sp, h.shad, h.vb, h.stb, h.window, h.flags⟩

theorem Inv.setTextTlb {s : State} (h : Inv s) (v : List TlbEntry) : Inv (s.setTextTlb v) :=
  ⟨h.memory, h.pc, h.psw, h.config, h.configEff, h.isp, h.msp, h.sp, h.shad, h.vb, h.stb, h.window, h.flags⟩

theorem Inv.setDataTlb {s : State} (h : Inv s) (v : List TlbEntry) : Inv (s.setDataTlb v) :=
  ⟨h.memory, h.pc, h.psw, h.config, h.configEff, h.isp, h.msp, h.sp, h.shad, h.vb, h.stb, h.window, h.flags⟩

theorem Inv.setTextNpsr {s : State} (h : Inv s) (v : Option Npsr) : Inv (s.setTextNpsr v) :=
  ⟨h.memory, h.pc, h.psw, h.config, h.configEff, h.isp, h.msp, h.sp, h.shad, h.vb, h.stb, h.window, h.flags⟩

theorem Inv.setDataNpsr {s : State} (h : Inv s) (v : Option Npsr) : Inv (s.setDataNpsr v) :=
  ⟨h.memory, h.pc, h.psw, h.config, h.configEff, h.isp, h.msp, h.sp, h.shad, h.vb, h.stb, h.window, h.flags⟩

theorem Inv.setPfbStale {s : State} (h : Inv s) (v : List StaleParcel) : Inv (s.setPfbStale v) :=
  ⟨h.memory, h.pc, h.psw, h.config, h.configEff, h.isp, h.msp, h.sp, h.shad, h.vb, h.stb, h.window, h.flags⟩

theorem Inv.setIcStale {s : State} (h : Inv s) (v : List StaleParcel) : Inv (s.setIcStale v) :=
  ⟨h.memory, h.pc, h.psw, h.config, h.configEff, h.isp, h.msp, h.sp, h.shad, h.vb, h.stb, h.window, h.flags⟩

theorem Inv.setTextMaps {s : State} (h : Inv s) (v : List TextMap) : Inv (s.setTextMaps v) :=
  ⟨h.memory, h.pc, h.psw, h.config, h.configEff, h.isp, h.msp, h.sp, h.shad, h.vb, h.stb, h.window, h.flags⟩

theorem Inv.setPfbQuads {s : State} (h : Inv s) (v : List Word) : Inv (s.setPfbQuads v) :=
  ⟨h.memory, h.pc, h.psw, h.config, h.configEff, h.isp, h.msp, h.sp, h.shad, h.vb, h.stb, h.window, h.flags⟩

theorem Inv.setAhead {s : State} (h : Inv s) (v : Option Word) : Inv (s.setAhead v) :=
  ⟨h.memory, h.pc, h.psw, h.config, h.configEff, h.isp, h.msp, h.sp, h.shad, h.vb, h.stb, h.window, h.flags⟩

theorem Inv.setT1Pending {s : State} (h : Inv s) (v : Bool) : Inv (s.setT1Pending v) :=
  ⟨h.memory, h.pc, h.psw, h.config, h.configEff, h.isp, h.msp, h.sp, h.shad, h.vb, h.stb, h.window, h.flags⟩

theorem Inv.setT2Pending {s : State} (h : Inv s) (v : Bool) : Inv (s.setT2Pending v) :=
  ⟨h.memory, h.pc, h.psw, h.config, h.configEff, h.isp, h.msp, h.sp, h.shad, h.vb, h.stb, h.window, h.flags⟩

theorem Inv.setNmiArmed {s : State} (h : Inv s) (v : Bool) : Inv (s.setNmiArmed v) :=
  ⟨h.memory, h.pc, h.psw, h.config, h.configEff, h.isp, h.msp, h.sp, h.shad, h.vb, h.stb, h.window, h.flags⟩

theorem Inv.setTracePending {s : State} (h : Inv s) (v : Bool) : Inv (s.setTracePending v) :=
  ⟨h.memory, h.pc, h.psw, h.config, h.configEff, h.isp, h.msp, h.sp, h.shad, h.vb, h.stb, h.window, h.flags⟩

theorem Inv.setWriteFaults {s : State} (h : Inv s) (v : Nat) : Inv (s.setWriteFaults v) :=
  ⟨h.memory, h.pc, h.psw, h.config, h.configEff, h.isp, h.msp, h.sp, h.shad, h.vb, h.stb, h.window, h.flags⟩

theorem Inv.setConfigEff {s : State} (h : Inv s) {v : Word} (hv : v &&& configMask = v) : Inv (s.setConfigEff v) :=
  ⟨h.memory, h.pc, h.psw, h.config, hv, h.isp, h.msp, h.sp, h.shad, h.vb, h.stb, h.window, h.flags⟩

theorem Inv.setVpEff {s : State} (h : Inv s) (v : Bool) : Inv (s.setVpEff v) :=
  ⟨h.memory, h.pc, h.psw, h.config, h.configEff, h.isp, h.msp, h.sp, h.shad, h.vb, h.stb, h.window, h.flags⟩

theorem Inv.setRecent {s : State} (h : Inv s) {v : List Recent} (hw : v.length ≤ 2)
    (hf : ∀ r ∈ v, r.flags &&& pswMask = r.flags) : Inv (s.setRecent v) :=
  ⟨h.memory, h.pc, h.psw, h.config, h.configEff, h.isp, h.msp, h.sp, h.shad, h.vb, h.stb, hw, hf⟩

theorem Inv.setEnded {s : State} (h : Inv s) (v : Ended) : Inv (s.setEnded v) :=
  ⟨h.memory, h.pc, h.psw, h.config, h.configEff, h.isp, h.msp, h.sp, h.shad, h.vb, h.stb, h.window, h.flags⟩

theorem Inv.setFoldable {s : State} (h : Inv s) (v : Bool) : Inv (s.setFoldable v) :=
  ⟨h.memory, h.pc, h.psw, h.config, h.configEff, h.isp, h.msp, h.sp, h.shad, h.vb, h.stb, h.window, h.flags⟩

theorem Inv.setFree {s : State} (h : Inv s) (v : Nat) : Inv (s.setFree v) :=
  ⟨h.memory, h.pc, h.psw, h.config, h.configEff, h.isp, h.msp, h.sp, h.shad, h.vb, h.stb, h.window, h.flags⟩

theorem Inv.setBusMap {s : State} (h : Inv s) (v : List BusRegion) : Inv (s.setBusMap v) :=
  ⟨h.memory, h.pc, h.psw, h.config, h.configEff, h.isp, h.msp, h.sp, h.shad, h.vb, h.stb, h.window, h.flags⟩

theorem Inv.setPins {s : State} (h : Inv s) (v : List Pins) : Inv (s.setPins v) :=
  ⟨h.memory, h.pc, h.psw, h.config, h.configEff, h.isp, h.msp, h.sp, h.shad, h.vb, h.stb, h.window, h.flags⟩

theorem Inv.setTurns {s : State} (h : Inv s) (v : List BusTurn) : Inv (s.setTurns v) :=
  ⟨h.memory, h.pc, h.psw, h.config, h.configEff, h.isp, h.msp, h.sp, h.shad, h.vb, h.stb, h.window, h.flags⟩

theorem Inv.raiseIf {s : State} (h : Inv s) (c : Bool) (t : Trap) : (raiseIf c t s).Leaves Inv := by
  cases c <;> exact h

theorem Inv.drawBit {s : State} (h : Inv s) : Inv (drawBit s).2 := h.setFree _

theorem Inv.drawWord {s : State} (h : Inv s) : Inv (drawWord s).2 := h.setFree _

theorem Inv.drawBelow {s : State} (h : Inv s) (n : Nat) : Inv (drawBelow n s).2 := h.setFree _

theorem Inv.drawSublist {α : Type} (xs : List α) {s : State} (h : Inv s) : Inv (drawSublist xs s).2 := by
  induction xs generalizing s with
  | nil => exact h
  | cons x rest ih => exact ih h.drawBit

theorem Inv.drawMix {s : State} (h : Inv s) (m a b : Word) : Inv (drawMix m a b s).2 := by
  unfold Machine.drawMix
  split
  · exact h
  · exact h.drawWord

/-- A mix on bits inside a mask keeps the mask. -/
theorem drawMix_inside (m a b mask : Word) (s : State) (ha : a &&& mask = a) (hm : m &&& mask = m) :
    (drawMix m a b s).1 &&& mask = (drawMix m a b s).1 := by
  unfold drawMix
  split
  · exact ha
  · refine mergeBits_inside _ _ _ _ ha ?_
    simp only [Machine.drawWord]
    rw [BitVec.and_assoc, BitVec.and_comm _ mask, ← BitVec.and_assoc, hm]

/-- A mix of two words inside a mask is inside it. -/
theorem drawMix_mask (m a b mask : Word) (s : State) (ha : a &&& mask = a) (hb : b &&& mask = b) :
    (drawMix m a b s).1 &&& mask = (drawMix m a b s).1 := by
  unfold drawMix
  split
  · exact ha
  · exact mergeBits_mask _ _ _ _ ha hb

theorem Inv.noteStale {s : State} (h : Inv s) (pa : Word) : Inv (noteStale pa s) := (h.setPfbStale _).setIcStale _

theorem Inv.physStore {s : State} (h : Inv s) (pa : Word) (n : Nat) (v : Word) : Inv (physStore pa n v s) :=
  (h.noteStale pa).setMem (Memory.wf_writeBE _ _ _ _ (h.noteStale pa).memory)

theorem Inv.otherMasters (ws : List Host.Cell) {s : State} (h : Inv s) : Inv (otherMasters ws s) := by
  induction ws generalizing s with
  | nil => exact h
  | cons c rest ih =>
    refine ih ?_
    split
    · exact h.physStore _ _ _
    · exact h

theorem Inv.busTurn {s : State} (h : Inv s) (locked : Bool) (pa : Word) : Inv (busTurn locked pa s).2 := by
  unfold Machine.busTurn
  split
  · exact h
  · dsimp only
    split
    · exact h.setTurns _
    · exact Inv.otherMasters _ (h.setTurns _)

theorem Inv.physRead {s : State} (h : Inv s) (locked : Bool) (t : Trap) (pa : Word) :
    (physRead locked t pa s).Leaves Inv := by
  have hb := h.busTurn locked pa
  unfold Machine.physRead
  dsimp only
  split <;> first | exact hb | trivial

theorem Inv.maybeForget {s : State} (h : Inv s) (va : Word) (m : Mapping) : Inv (maybeForget va m s).2 := by
  unfold Machine.maybeForget
  split
  · exact h
  · exact h.drawBit

theorem Inv.cachedMapping {s : State} (h : Inv s) (k : Kind) (va : Word) : Inv (cachedMapping k va s).2 := by
  unfold Machine.cachedMapping
  split
  · exact h
  · exact h.maybeForget _ _
  · exact h.maybeForget _ _
  · exact h.drawBit.maybeForget _ _

theorem Inv.makeRoom {s : State} (h : Inv s) (p : BitVec 20) (tlb : List TlbEntry) : Inv (makeRoom p tlb s).2 := by
  unfold Machine.makeRoom
  dsimp only
  split
  · exact h
  · exact h.drawBelow tlbSize

theorem Inv.loadTlb {s : State} (h : Inv s) (k : Kind) (e : TlbEntry) : Inv (loadTlb k e s) := by
  unfold Machine.loadTlb
  dsimp only
  split
  · exact (h.makeRoom _ _).setTextTlb _
  · exact (h.makeRoom _ _).setDataTlb _

theorem Inv.loadNpsr {s : State} (h : Inv s) (k : Kind) (e : Npsr) : Inv (loadNpsr k e s) := by
  unfold Machine.loadNpsr
  split
  · exact h.setTextNpsr _
  · exact h.setDataNpsr _

theorem Inv.writeBack {s : State} (h : Inv s) (pa old new : Word) : (writeBack pa old new s).Leaves Inv := by
  have hb := h.busTurn true pa
  unfold Machine.writeBack
  dsimp only
  split
  · exact h
  · split
    · exact hb.physStore _ _ _
    · exact hb
    · trivial
    · exact hb

theorem Inv.walkPage {s : State} (h : Inv s) (l : Bool) (k : Kind) (u : Bool) (va ste : Word) :
    (walkPage l k u va ste s).Leaves Inv := by
  unfold Machine.walkPage
  refine (h.physRead _ _ _).bind fun pte s h => ?_
  split
  · exact h
  · exact (h.writeBack _ _ _).bind fun _ _ h => h.loadTlb _ _

theorem Inv.walk {s : State} (h : Inv s) (l : Bool) (k : Kind) (u : Bool) (va : Word) :
    (walk l k u va s).Leaves Inv := by
  unfold Machine.walk
  refine (h.physRead _ _ _).bind fun ste s h => ?_
  split
  · exact h
  · split
    · exact h.loadNpsr _ _
    · exact h.walkPage _ _ _ _ _

theorem Inv.resolve {s : State} (h : Inv s) (l : Bool) (k : Kind) (u : Bool) (va : Word) :
    (resolve l k u va s).Leaves Inv := by
  unfold Machine.resolve
  split
  · exact h
  · have hc := h.cachedMapping k va
    dsimp only
    refine Res.Leaves.bind ?_ fun m s h => ?_
    · split
      · split
        · exact hc.walk _ _ _ _
        · exact hc
      · exact hc.walk _ _ _ _
    · split <;> exact h

theorem Inv.translateIn {s : State} (h : Inv s) (l : Bool) (k : Kind) (u : Bool) (va : Word) :
    (translateIn l k u va s).Leaves Inv := (h.resolve _ _ _ _).bind fun _ _ h => h

theorem Inv.readLine {s : State} (h : Inv s) (pa : Word) : (readLine pa s).Leaves Inv :=
  readLine_leaves (fun l t a _ h => h.physRead l t a) pa h

/-- Reading text ahead keeps the invariant. -/
theorem Inv.textReads : TextReads Inv where
  free _ _ h := h.setFree _
  textMaps _ _ h := h.setTextMaps _
  pfbQuads _ _ h := h.setPfbQuads _
  ahead _ _ h := h.setAhead _
  resolve va _ h := h.resolve _ _ _ va
  readLine pa _ h := h.readLine pa

theorem Inv.readAhead {s : State} (h : Inv s) (locked : Bool) : (readAhead locked s).Leaves Inv :=
  Inv.textReads.readAhead locked h

theorem Inv.dataAddress {s : State} (h : Inv s) (l : Bool) (k : Kind) (u : Bool) (va : Word) :
    (dataAddress l k u va s).Leaves Inv := (h.readAhead l).bind fun _ _ h => h.translateIn _ _ _ _

theorem Inv.translate {s : State} (h : Inv s) (k : Kind) (u : Bool) (va : Word) : (translate k u va s).Leaves Inv :=
  h.translateIn _ _ _ _

theorem Inv.flushTranslations {s : State} (h : Inv s) : Inv (flushTranslations s) :=
  (((h.setTextTlb _).setTextNpsr _).setDataTlb _).setDataNpsr _

theorem Inv.flushPage {s : State} (h : Inv s) (va : Word) : Inv (flushPage va s) :=
  (((h.setTextTlb _).setDataTlb _).setTextNpsr _).setDataNpsr _

theorem Inv.orNone {α : Type} {r : Res (Option α)} (h : r.Leaves Inv) : (orNone r).Leaves Inv := by
  unfold Machine.orNone
  split <;> exact h

theorem Inv.flushAddress {s : State} (h : Inv s) (va : Word) : (flushAddress va s).Leaves Inv := by
  unfold Machine.flushAddress
  split
  · exact h
  · refine Inv.orNone ((h.physRead _ _ _).bind fun ste _ h => ?_)
    split
    · exact h
    · split
      · exact h
      · exact (h.physRead _ _ _).bind fun _ _ h => h

theorem Inv.scrambleCells {s : State} (h : Inv s) (p : Fin 64 → Bool) : Inv (scrambleCells p s) :=
  (h.setCache _).setFree _

theorem Inv.useCache {s : State} (h : Inv s) (acc : Access) (va : Word) : Inv (useCache acc va s).2 := by
  unfold Machine.useCache
  split
  · exact (h.scrambleCells _).drawBit
  · split
    · split
      · exact h.drawBit
      · exact h
    · exact h

theorem Inv.writeCell {s : State} (h : Inv s) (va v : Word) : Inv (writeCell va v s) := h.setCache _

theorem Inv.checkAccess {s : State} (h : Inv s) (va : Word) (n : Nat) : (checkAccess va n s).Leaves Inv :=
  h.raiseIf _ _

theorem Inv.memRead {s : State} (h : Inv s) (acc : Access) (va : Word) (n : Nat) : (memRead acc va n s).Leaves Inv := by
  unfold Machine.memRead
  refine (h.checkAccess _ _).bind fun _ s h => ?_
  have hu := h.useCache acc va
  dsimp only
  split
  · exact hu
  · exact (hu.dataAddress _ _ _ _).bind fun pa s h => (h.readAhead _).bind fun _ s h => (h.physRead _ _ _).bind fun w s h => h

theorem Inv.prepWrite {s : State} (h : Inv s) (acc : Access) (va : Word) (n : Nat) :
    (prepWrite acc va n s).Leaves Inv := by
  unfold Machine.prepWrite
  refine (h.checkAccess _ _).bind fun _ s h => ?_
  have hu := h.useCache acc va
  dsimp only
  split
  · exact hu
  · exact (hu.dataAddress _ _ _ _).bind fun pa s h => h

theorem Inv.takenWords (n : Nat) (acc : Access) (pa : Word) {s : State} (h : Inv s) :
    (takenWords acc pa n s).Leaves Inv := by
  induction n generalizing acc pa s with
  | zero => exact h
  | succ k ih =>
    have hb := h.busTurn acc.locked pa
    unfold Machine.takenWords
    dsimp only
    split
    · exact (ih _ _ hb).bind fun _ _ h => h
    · split <;> exact hb
    · trivial
    · exact hb

theorem Inv.claim {s : State} (h : Inv s) (acc : Access) (t : Target) (n : Nat) : (claim acc t n s).Leaves Inv := by
  cases t with
  | cell va => exact h
  | phys pa => exact (h.readAhead _).bind fun _ _ h => (Inv.takenWords _ _ _ h).bind fun _ _ h => h

theorem Inv.commit {s : State} (h : Inv s) (g : Grant) (n : Nat) (v : Word) : Inv (commit g n v s) := by
  unfold Machine.commit
  cases g with
  | cell va => exact h.writeCell _ _
  | phys pa k =>
    dsimp only
    split
    · exact h.setWriteFaults _
    · exact h.physStore _ _ _

theorem Inv.memWrite {s : State} (h : Inv s) (acc : Access) (va : Word) (n : Nat) (v : Word) :
    (memWrite acc va n v s).Leaves Inv :=
  (h.prepWrite acc va n).bind fun t _ h => (h.claim acc t 1).bind fun g _ h => h.commit g n v

theorem Inv.orReset {α : Type} {r : Res α} (h : r.Leaves Inv) : (orReset r).Leaves Inv := by
  unfold Machine.orReset
  split <;> exact h

theorem Inv.sequenceRead {s : State} (h : Inv s) (va : Word) : (sequenceRead va s).Leaves Inv :=
  Inv.orReset (h.memRead _ _ _)

theorem Inv.sequenceWrite {s : State} (h : Inv s) (va v : Word) : (sequenceWrite va v s).Leaves Inv :=
  Inv.orReset (h.memWrite _ _ _ _)

theorem Inv.stalePsw (w : List Recent) (p : Word) {s : State} (h : Inv s) : Inv (stalePsw w p s).2 := by
  induction w generalizing p s with
  | nil => exact h
  | cons r rest ih => exact ih _ (h.drawMix _ _ _)

theorem Inv.mixedPsw (w : List Recent) (made v : Word) {s : State} (h : Inv s) : Inv (mixedPsw w made v s).2 := by
  induction w generalizing made v s with
  | nil => exact h
  | cons r rest ih => exact ih _ _ (h.drawMix _ _ _)

theorem mixedPsw_mask (w : List Recent) (made v : Word) (s : State)
    (hw : ∀ r ∈ w, r.flags &&& pswMask = r.flags) (hv : v &&& pswMask = v) :
    (mixedPsw w made v s).1 &&& pswMask = (mixedPsw w made v s).1 := by
  induction w generalizing made v s with
  | nil => exact hv
  | cons r rest ih =>
    exact ih _ _ _ (fun x hx => hw x (List.mem_cons_of_mem _ hx))
      (drawMix_inside _ _ _ _ _ hv (hw r List.mem_cons_self))

theorem Inv.staleShad (w : List Recent) (v : Word) {s : State} (h : Inv s) : Inv (staleShad w v s).2 := by
  induction w generalizing v s with
  | nil => exact h
  | cons r rest ih =>
    unfold Machine.staleShad
    split
    · exact ih _ h
    · exact ih _ h.drawBit

theorem Inv.readRegister {s : State} (h : Inv s) (r : Reg) : Inv (readRegister r s).2 := by
  cases r <;> first | exact h | exact Inv.stalePsw _ _ h | exact Inv.staleShad _ _ h

theorem Inv.writePsw {s : State} (h : Inv s) (v : Word) : Inv (writePsw v s) := by
  unfold Machine.writePsw
  exact (Inv.mixedPsw _ _ _ h).setPsw (mixedPsw_mask _ _ _ _ h.flags (and_mask_twice _ _))

theorem Inv.mixedShad (w : List Recent) (v : Word) {s : State} (h : Inv s) : Inv (mixedShad w v s).2 := by
  induction w generalizing v s with
  | nil => exact h
  | cons r rest ih =>
    unfold Machine.mixedShad
    split
    · exact ih _ h
    · exact ih _ h.drawBit

theorem Inv.writeShad {s : State} (h : Inv s) (v : Word) : Inv (writeShad v s) :=
  (Inv.mixedShad _ _ h).setShad (quadAlign_quadAlign _)

theorem Inv.writeRegister {s : State} (h : Inv s) (r : Reg) (v : Word) : Inv (writeRegister r v s) := by
  cases r with
  | msp => exact h.setMsp (quadAlign_quadAlign _)
  | isp =>
    simp only [Machine.writeRegister]
    split
    · exact h.setIsp (quadAlign_quadAlign _)
    · exact (h.setIsp (quadAlign_quadAlign _)).setShad (quadAlign_quadAlign _)
  | sp =>
    simp only [Machine.writeRegister]
    split
    · exact ((h.setSp (quadAlign_quadAlign _)).setMsp (quadAlign_quadAlign _)).setShad (quadAlign_quadAlign _)
    · exact (h.setSp (quadAlign_quadAlign _)).setMsp (quadAlign_quadAlign _)
  | config => exact h.setConfig (and_mask_twice _ _)
  | psw => exact h.writePsw v
  | shad => exact h.writeShad v
  | vb => exact h.setVb (quadAlign_quadAlign _)
  | stb => exact (h.setStb (and_mask_twice _ _)).flushTranslations
  | fault => exact h.setFault _
  | id => exact h
  | timer1 => exact h.setTimer1 _
  | timer2 => exact h.setTimer2 _

theorem Inv.setCsp {s : State} (h : Inv s) (v : Word) : Inv (setCsp v s) := by
  unfold Machine.setCsp
  split
  · exact (h.setSp (quadAlign_quadAlign _)).setShad (quadAlign_quadAlign _)
  · exact (h.setIsp (quadAlign_quadAlign _)).setShad (quadAlign_quadAlign _)

theorem Inv.resetCommon {s : State} (h : Inv s) (v : Word) (hv : quadAlign v = v) : Inv (resetCommon v s) := by
  have h0 : Inv (flushTextCaches (Machine.flushTranslations s)) :=
    ((((Inv.flushTranslations h).setPfbStale _).setIcStale _).setTextMaps _).setPfbQuads _
  have h1 := ((((h0.setShad hv).setPsw (v := 0#32) (by decide)).setConfig (v := 0#32) (by decide)).setConfigEff
    (v := 0#32) (by decide)).setVpEff false
  have h2 := (((h1.setPc (v := 0#32) (by decide)).setT1Pending false).setT2Pending false).setNmiArmed true
  exact (((((h2.setTracePending false).setWriteFaults 0).setRecent (v := []) (by simp) (by simp)).setEnded _).setFoldable _).setAhead _

theorem Inv.forgetRegisters {s : State} (h : Inv s) : Inv (forgetRegisters s) := by
  have h8 := h.drawWord.drawWord.drawWord.drawWord.drawWord.drawWord.drawWord.drawWord
  have key : ∀ (a b c d e f g w : Word) {s : State}, Inv s → Inv ((((((((s.setSp (quadAlign a)).setMsp
      (quadAlign b)).setIsp (quadAlign c)).setVb (quadAlign d)).setStb (e &&& stbMask)).setFault f).setTimer1
      g).setTimer2 w) := fun a b c d e f g w s h =>
    (((((((h.setSp (quadAlign_quadAlign _)).setMsp (quadAlign_quadAlign _)).setIsp (quadAlign_quadAlign _)).setVb
      (quadAlign_quadAlign _)).setStb (and_mask_twice _ _)).setFault _).setTimer1 _).setTimer2 _
  exact (key _ _ _ _ _ _ _ _ h8).scrambleCells _

theorem Inv.resetSequence {s : State} (h : Inv s) (external : Bool) : Inv (resetSequence external s) := by
  unfold Machine.resetSequence
  split
  · exact (h.resetCommon _ quadAlign_zero).forgetRegisters
  · exact h.resetCommon _ (quadAlign_quadAlign _)

theorem Inv.recordFault {s : State} (h : Inv s) (t : Trap) : Inv (recordFault t s) := by
  cases t <;> first | exact h | exact h.setFault _

theorem Inv.restoreCsp {s : State} (h : Inv s) : Inv (restoreCsp s) := by
  unfold Machine.restoreCsp
  split
  · exact h.setSp h.shad
  · exact h.setIsp h.shad

theorem Inv.pushFrame {s : State} (h : Inv s) (pc : Word) : (pushFrame pc s).Leaves Inv :=
  (h.sequenceWrite _ _).bind fun _ _ h => h.sequenceWrite _ _

theorem eventPsw_mask (p : Word) (h : p &&& pswMask = p) : eventPsw p &&& pswMask = eventPsw p := by
  unfold eventPsw
  rw [BitVec.and_assoc, BitVec.and_comm _ pswMask, ← BitVec.and_assoc, h]

theorem quad16 : quadAlign 16#32 = 16#32 := by decide

theorem Inv.enterKernel {s : State} (h : Inv s) (v : Word) : (enterKernel v s).Leaves Inv := by
  have hi := quadAlign_sub s.isp 16#32 h.isp quad16
  refine (((h.setIsp hi).setShad hi).sequenceRead _).bind fun w s h => ?_
  exact (h.setPc (textAlign_textAlign _)).setPsw (eventPsw_mask _ h.psw)

theorem Inv.eventDone {s : State} (h : Inv s) : Inv (eventDone s) :=
  (((h.setTracePending _).setRecent (v := []) (by simp) (by simp)).setEnded _).setFoldable _

theorem Inv.interruptSequence {s : State} (h : Inv s) (v : Word) : (interruptSequence v s).Leaves Inv :=
  (h.restoreCsp.pushFrame _).bind fun _ _ h => (h.enterKernel _).bind fun _ _ h => h.eventDone

theorem Inv.exceptionSequence {s : State} (h : Inv s) (t : Trap) : (exceptionSequence t s).Leaves Inv :=
  ((h.recordFault t).restoreCsp.sequenceWrite _ _).bind fun _ _ h =>
    (h.pushFrame _).bind fun _ _ h => (h.enterKernel _).bind fun _ _ h => h.eventDone

/-- What holds of the next state of an outcome, if it has one. -/
def Next (P : State → Prop) (o : Host.Outcome State Fault Refusal) : Prop :=
  match o with
  | .next s => P s
  | _ => True

theorem Inv.settleSequence {r : Res Unit} (h : r.Leaves Inv) : Next Inv (settleSequence r) := by
  cases r with
  | ok u s => exact h
  | trap t s => exact Inv.resetSequence h _
  | halt e => trivial
  | refuse e => trivial

theorem Inv.takeTrap {s : State} (h : Inv s) (t : Trap) : Next Inv (takeTrap t s) := by
  cases t <;> first | exact h.resetSequence false | exact h.resetSequence true | exact Inv.settleSequence (h.exceptionSequence _)

theorem Inv.settle {r : Res Unit} (h : r.Leaves Inv) : Next Inv (settle r) := by
  cases r with
  | ok u s => exact h
  | trap t s => exact Inv.takeTrap h t
  | halt e => trivial
  | refuse e => trivial

theorem quiet_flags (s : State) : (quiet s).flags &&& pswMask = (quiet s).flags := by
  show 0#32 &&& pswMask = 0#32
  decide

theorem Inv.retire {s : State} (h : Inv s) (t : Word) (r : Recent) (hr : r.flags &&& pswMask = r.flags) :
    (retire t r s).Leaves Inv := by
  refine ((h.setPc (textAlign_textAlign _)).setRecent ?_ ?_).setEnded _
  · simp only [List.length_cons, List.length_take]; omega
  · intro x hx
    rcases List.mem_cons.1 hx with rfl | hx
    · exact hr
    · exact h.flags x (List.mem_of_mem_take hx)

theorem Inv.unimplementedSequence {s : State} (h : Inv s) (off : Word) : (unimplementedSequence off s).Leaves Inv :=
  (h.memWrite _ _ _ _).bind fun _ _ h => (h.sequenceRead _).bind fun _ _ h =>
    (h.setPc (textAlign_textAlign _)).setEnded _

theorem Inv.csp {s : State} (h : Inv s) : quadAlign (csp s) = csp s := by
  unfold Machine.csp
  split
  · exact h.sp
  · exact h.isp

theorem leaveRecent_length (s : State) : (leaveRecent s).length ≤ 2 := by
  simp only [leaveRecent, List.length_cons, List.length_map, List.length_take]; omega

theorem leaveRecent_flags (s : State) : ∀ r ∈ leaveRecent s, r.flags &&& pswMask = r.flags := by
  intro r hr
  rcases List.mem_cons.1 hr with rfl | hr
  · exact quiet_flags s
  · obtain ⟨q, _, rfl⟩ := List.mem_map.1 hr
    exact quiet_flags s

theorem Inv.leaveKernel {s : State} (h : Inv s) (pc p : Word) : (leaveKernel pc p s).Leaves Inv := by
  have h1 := ((h.setIsp (quadAlign_add s.isp 16#32 h.isp quad16)).setPsw (v := p &&& pswMask)
    (and_mask_twice _ _)).setPc (textAlign_textAlign pc)
  have h2 := h1.setShad h1.csp
  exact (((h2.setConfigEff h2.config).setVpEff _).setRecent (leaveRecent_length s) (leaveRecent_flags s)).setEnded _

theorem Inv.locate {s : State} (h : Inv s) (px : Bool) (n : Nat) (o : Operand) : (locate px n o s).Leaves Inv := by
  unfold Machine.locate
  split
  · exact h
  · exact h
  · exact (h.memRead _ _ _).bind fun _ _ h => (h.raiseIf _ _).bind fun _ _ h => h
  · exact h
  · split <;> exact h
  · exact h

theorem Inv.staleSubword (w : List Recent) (who : Reader) (va : Word) (n : Nat) (v : Word) {s : State} (h : Inv s) :
    Inv (staleSubword w who va n v s).2 := by
  induction w generalizing v s with
  | nil => exact h
  | cons r rest ih =>
    unfold Machine.staleSubword
    split
    · exact ih _ h
    · split
      · exact ih _ h.drawBit
      · exact ih _ h

theorem Inv.readPlace {s : State} (h : Inv s) (who : Reader) (p : Place) : (readPlace who p s).Leaves Inv := by
  cases p with
  | constant v => exact h
  | register r => exact h.readRegister r
  | memory acc va n sg => exact (h.memRead _ _ _).bind fun _ _ h => Inv.staleSubword _ _ _ _ _ h

theorem Inv.prepPlace {s : State} (h : Inv s) (il : Bool) (p : Place) : (prepPlace il p s).Leaves Inv := by
  cases p with
  | constant v => exact h
  | register r => exact h
  | memory acc va n sg => exact (h.prepWrite _ _ _).bind fun _ _ h => h

theorem Inv.claimDest {s : State} (h : Inv s) (d : Dest) : (claimDest d s).Leaves Inv := by
  cases d with
  | register r => exact h
  | memory acc t n => exact (h.claim _ _ _).bind fun _ _ h => h

theorem Inv.storeDest {s : State} (h : Inv s) (d : Ready) (v : Word) : Inv (storeDest d v s) := by
  cases d with
  | register r => exact h.writeRegister r v
  | memory t n => exact h.commit _ _ _

theorem Inv.checkForm {s : State} (h : Inv s) (px : Bool) (u : DstUse) (f : Form) :
    (checkForm px u f s).Leaves Inv := by
  unfold Machine.checkForm
  repeat' split
  all_goals first | exact h | trivial

theorem Inv.openForm {s : State} (h : Inv s) (px : Bool) (u : DstUse) (f : Form) : (openForm px u f s).Leaves Inv :=
  (h.checkForm px u f).bind fun _ _ h => (h.raiseIf _ _).bind fun _ _ h =>
    (h.locate _ _ _).bind fun _ _ h => (h.locate _ _ _).bind fun _ _ h => h

theorem Inv.physWords (n : Nat) (l : Bool) (pa : Word) {s : State} (h : Inv s) : (physWords l pa n s).Leaves Inv := by
  induction n generalizing l pa s with
  | zero => exact h
  | succ k ih => exact (h.physRead _ _ _).bind fun _ _ h => (ih _ _ h).bind fun _ _ h => h

theorem Inv.dataWords {s : State} (h : Inv s) (pa : Word) (n : Nat) : (dataWords pa n s).Leaves Inv :=
  (h.readAhead _).bind fun _ _ h => Inv.physWords _ _ _ h

theorem Inv.readWords {s : State} (h : Inv s) (acc : Access) (va : Word) (n : Nat) :
    (readWords acc va n s).Leaves Inv := by
  unfold Machine.readWords
  refine (h.checkAccess _ _).bind fun _ s h => ?_
  have hu := h.useCache acc va
  dsimp only
  split
  · exact hu
  · exact (hu.dataAddress _ _ _ _).bind fun pa s h => h.dataWords _ _

theorem Inv.commitWords (ws : List Word) (g : Grant) {s : State} (h : Inv s) : Inv (commitWords g ws s) := by
  induction ws generalizing g s with
  | nil => exact h
  | cons w rest ih =>
    cases g with
    | cell va => exact ih _ (h.writeCell _ _)
    | phys pa k =>
      cases k with
      | zero => exact h.setWriteFaults _
      | succ k => exact ih _ (h.physStore _ _ _)

end Sys2Proof.Machine
end

