-- ==== Sys2Proof/Laws/KeepRun.lean ====
section
/-! SUPPORT. Every operation of an instruction keeps the invariant, in every state. -/

namespace Sys2Proof.Machine

/-- A word with bits of PSW only. -/
def InPsw (w : Word) : Prop := w &&& pswMask = w

/-- A hazard record whose flags lie in PSW. -/
def Recent.inside (r : Recent) : Prop := InPsw r.flags

theorem InPsw.bit {w : Word} (h : InPsw w) (i : Nat) : w.getLsbD i = (w.getLsbD i && pswMask.getLsbD i) := by
  have := congrArg (fun w : Word => w.getLsbD i) h
  simpa using this.symm

theorem InPsw.of_bits {w : Word} (h : ∀ i, i < 32 → w.getLsbD i = true → pswMask.getLsbD i = true) : InPsw w := by
  apply BitVec.eq_of_getLsbD_eq
  intro i hi
  rw [BitVec.getLsbD_and]
  cases hw : w.getLsbD i
  · rfl
  · rw [h i hi hw]; rfl

theorem InPsw.or {a b : Word} (ha : InPsw a) (hb : InPsw b) : InPsw (a ||| b) := by
  refine .of_bits fun i hi h => ?_
  rw [BitVec.getLsbD_or, ha.bit i, hb.bit i] at h
  revert h
  cases pswMask.getLsbD i <;> simp

theorem InPsw.zero : InPsw 0#32 := by unfold InPsw; decide
theorem InPsw.flagMask : InPsw flagMask := by unfold InPsw; decide
theorem InPsw.f (b : Bool) : InPsw (flagBit flagF b) := by unfold InPsw; cases b <;> decide
theorem InPsw.c (b : Bool) : InPsw (flagBit flagC b) := by unfold InPsw; cases b <;> decide
theorem InPsw.v (b : Bool) : InPsw (flagBit flagV b) := by unfold InPsw; cases b <;> decide
theorem InPsw.e (b : Bool) : InPsw (flagBit flagE b) := by unfold InPsw; cases b <;> decide

theorem InPsw.flagsWritten (p : Place) : InPsw p.flagsWritten := by
  unfold Place.flagsWritten
  split
  · exact .flagMask
  · exact .zero

theorem InPsw.record {mask : Word} (h : InPsw mask) (p : Place) (sub : Option Subword) (s0 s : State) :
    (record p mask sub s0 s).inside := h.or (.flagsWritten p)

theorem quiet_inside (s : State) : (quiet s).inside := quiet_flags s

theorem mergeBits_psw (m p f : Word) (hp : InPsw p) (hm : InPsw m) : InPsw (mergeBits m p f) :=
  mergeBits_inside m p f pswMask hp hm

theorem InPsw.putBit {p : Word} (h : InPsw p) (i : Nat) (b : Bool) (hi : InPsw (1#32 <<< i)) : InPsw (putBit p i b) := by
  unfold Machine.putBit
  split
  · exact h.or hi
  · refine .of_bits fun j _ hw => ?_
    rw [BitVec.getLsbD_and, h.bit j] at hw
    revert hw
    cases pswMask.getLsbD j <;> simp

theorem Inv.putPsw {s : State} (h : Inv s) (i : Nat) (b : Bool) (hi : InPsw (1#32 <<< i)) :
    Inv (s.setPsw (Machine.putBit s.psw i b)) := h.setPsw (InPsw.putBit h.psw i b hi)

theorem InPsw.cv (c v : Bool) : InPsw (flagsCV c v) := (InPsw.c c).or (.v v)

theorem BinOp.mask_inside (op : BinOp) (a b : Word) : InPsw (op.calc a b).mask := by
  cases op <;> first | exact .cv true true | exact .v true | exact .c true | exact .zero

theorem CmpOp.mask_inside (op : CmpOp) (a b : Word) : InPsw (op.calc a b).mask := by
  cases op <;> exact .f true

theorem TagOp.mask_inside (op : TagOp) (a b : Word) : InPsw (op.calc a b).mask := by
  have key : ∀ r c v, InPsw (calcTagged a b r c v).mask := by
    intro r c v
    unfold calcTagged
    split
    · exact .f true
    · exact (InPsw.f true).or (.cv true true)
  cases op <;> exact key _ _ _

theorem Inv.finish {s : State} (h : Inv s) (t : Word) (r : Recent) (c : Calc) (hr : r.inside) (hc : InPsw c.mask) :
    (finish t r c s).Leaves Inv := (h.setPsw (mergeBits_psw _ _ _ h.psw hc)).retire t r hr

theorem InPsw.afterStore {c : Calc} (h : InPsw c.mask) (early : Bool) (p : Place) :
    InPsw (c.afterStore early p).mask := by
  unfold Calc.afterStore
  split
  · exact .zero
  · exact h

theorem Inv.runBinary {s : State} (h : Inv s) (op : BinOp) (acc px : Bool) (f : Form) :
    (runBinary op acc px f s).Leaves Inv :=
  (h.openForm _ _ _).bind fun _ _ h => (h.readPlace _ _).bind fun _ _ h => (h.readPlace _ _).bind fun _ _ h =>
    (h.prepPlace _ _).bind fun _ _ h => (h.raiseIf _ _).bind fun _ _ h => (h.raiseIf _ _).bind fun _ _ h =>
      (h.claimDest _).bind fun _ _ h =>
        (h.storeDest _ _).finish _ _ _ (InPsw.record (op.mask_inside _ _) _ _ _ _) (.afterStore (op.mask_inside _ _) _ _)

theorem Inv.runLock {s : State} (h : Inv s) (op : LockOp) (px : Bool) (f : Form) : (runLock op px f s).Leaves Inv :=
  (h.openForm _ _ _).bind fun _ _ h => (h.readPlace _ _).bind fun _ _ h => (h.readPlace _ _).bind fun _ _ h =>
    (h.prepPlace _ _).bind fun _ _ h => (h.raiseIf _ _).bind fun _ _ h =>
      (h.claimDest _).bind fun _ _ h => ((h.storeDest _ _).prepPlace _ _).bind fun _ _ h =>
        (h.claimDest _).bind fun _ _ h => (h.storeDest _ _).retire _ _ (InPsw.record .zero _ _ _ _)

theorem Inv.runCompare {s : State} (h : Inv s) (op : CmpOp) (px : Bool) (f : Form) :
    (runCompare op px f s).Leaves Inv :=
  (h.openForm _ _ _).bind fun _ _ h => (h.readPlace _ _).bind fun _ _ h => (h.readPlace _ _).bind fun _ _ h =>
    h.finish _ _ _ (op.mask_inside _ _) (op.mask_inside _ _)

theorem Inv.runTagged {s : State} (h : Inv s) (op : TagOp) (px : Bool) (f : Form) :
    (runTagged op px f s).Leaves Inv := by
  refine (h.openForm _ _ _).bind fun _ _ h => (h.readPlace _ _).bind fun _ _ h => (h.readPlace _ _).bind fun _ _ h => ?_
  dsimp only
  split
  · exact (h.raiseIf _ _).bind fun _ _ h => h.finish _ _ _ (op.mask_inside _ _) (op.mask_inside _ _)
  · exact (h.prepPlace _ _).bind fun _ _ h => (h.raiseIf _ _).bind fun _ _ h => (h.claimDest _).bind fun _ _ h =>
      (h.storeDest _ _).finish _ _ _ (InPsw.record (op.mask_inside _ _) _ _ _ _) (.afterStore (op.mask_inside _ _) _ _)

theorem Inv.runMov {s : State} (h : Inv s) (px : Bool) (f : Form) : (runMov px f s).Leaves Inv :=
  (h.openForm _ _ _).bind fun _ _ h => (h.readPlace _ _).bind fun _ _ h => (h.prepPlace _ _).bind fun _ _ h =>
    (h.raiseIf _ _).bind fun _ _ h => (h.claimDest _).bind fun _ _ h =>
      (h.storeDest _ _).retire _ _ (InPsw.record .zero _ _ _ _)

theorem Inv.effectiveAddress {s : State} (h : Inv s) (o : Operand) : (effectiveAddress o s).Leaves Inv := by
  unfold Machine.effectiveAddress
  split
  · exact h
  · exact h
  · exact h.memRead _ _ _
  · exact h
  · exact h

theorem Inv.runMova {s : State} (h : Inv s) (px : Bool) (f : Form) : (runMova px f s).Leaves Inv :=
  (h.raiseIf _ _).bind fun _ _ h => (h.raiseIf _ _).bind fun _ _ h => (h.effectiveAddress _).bind fun _ _ h =>
    (h.locate _ _ _).bind fun _ _ h => (h.prepPlace _ _).bind fun _ _ h =>
      (h.claimDest _).bind fun _ _ h => (h.storeDest _ _).retire _ _ (quiet_inside _)

theorem Inv.dqmSource {s : State} (h : Inv s) (p : Place) (n : Nat) : (dqmSource p n s).Leaves Inv := by
  cases p with
  | constant v => exact h
  | register r => exact h
  | memory acc va m sg => exact h.readWords _ _ _

theorem Inv.dqmTarget {s : State} (h : Inv s) (p : Place) (n : Nat) : (dqmTarget p n s).Leaves Inv := by
  cases p with
  | constant v => exact h
  | register r => exact h
  | memory acc va m sg => exact (h.prepWrite _ _ _).bind fun _ _ h => h.claim _ _ _

theorem Inv.runDqm {s : State} (h : Inv s) (px : Bool) (f : Form) : (runDqm px f s).Leaves Inv := by
  unfold Machine.runDqm
  split
  · exact h
  · exact (h.raiseIf _ _).bind fun _ _ h => (h.raiseIf _ _).bind fun _ _ h => (h.locate _ _ _).bind fun _ _ h =>
      (h.locate _ _ _).bind fun _ _ h => (h.dqmSource _ _).bind fun _ _ h => (h.dqmTarget _ _).bind fun _ _ h =>
        (h.commitWords _ _).retire _ _ (quiet_inside _)

theorem Inv.runUnimplementedDyadic {s : State} (h : Inv s) (px : Bool) (f : Form) :
    (runUnimplementedDyadic px f s).Leaves Inv :=
  (h.raiseIf _ _).bind fun _ _ h => h.unimplementedSequence _

theorem Inv.checkMonadic {s : State} (h : Inv s) (m : BitVec 4) : (checkMonadic m s).Leaves Inv := h.raiseIf _ _

theorem Inv.flowTarget {s : State} (h : Inv s) (m : BitVec 4) (o : Word) : (flowTarget m o s).Leaves Inv := by
  unfold Machine.flowTarget
  split
  · exact h.memRead _ _ _
  · exact h.memRead _ _ _
  · exact h
  · exact h
  · exact h

theorem Inv.runJmp {s : State} (h : Inv s) (m : BitVec 4) (o : Word) : (runJmp m o s).Leaves Inv :=
  (h.checkMonadic _).bind fun _ _ h => (h.flowTarget _ _).bind fun _ _ h => h.retire _ _ (quiet_inside _)

theorem Inv.runJmpIf {s : State} (h : Inv s) (b px : Bool) (m : BitVec 4) (o : Word) (n : Nat) :
    (runJmpIf b px m o n s).Leaves Inv :=
  (h.raiseIf _ _).bind fun _ _ h => (h.flowTarget _ _).bind fun _ _ h => h.retire _ _ (quiet_inside _)

theorem Inv.runCall {s : State} (h : Inv s) (px : Bool) (m : BitVec 4) (o : Word) (n : Nat) :
    (runCall px m o n s).Leaves Inv :=
  (h.checkMonadic _).bind fun _ _ h => (h.raiseIf _ _).bind fun _ _ h => (h.memWrite _ _ _ _).bind fun _ _ h =>
    (h.flowTarget _ _).bind fun _ _ h => h.retire _ _ (quiet_inside _)

theorem Inv.runLdraa {s : State} (h : Inv s) (px : Bool) (m : BitVec 4) (o : Word) (n : Nat) :
    (runLdraa px m o n s).Leaves Inv :=
  (h.checkMonadic _).bind fun _ _ h => (h.flowTarget _ _).bind fun _ _ h => (h.prepPlace _ _).bind fun _ _ h =>
    (h.claimDest _).bind fun _ _ h => (h.storeDest _ _).retire _ _ (quiet_inside _)

theorem Inv.popFrame {s : State} (h : Inv s) (off : Word) : Inv (popFrame off s) := by
  have h1 : Inv (Machine.setCsp (Machine.csp s + quadAlign off) s) := Inv.setCsp h _
  unfold Machine.popFrame
  dsimp only
  split
  · exact h1.setMsp h1.sp
  · exact h1

theorem Inv.runReturn {s : State} (h : Inv s) (m : BitVec 4) (o : Word) : (runReturn m o s).Leaves Inv :=
  (h.raiseIf _ _).bind fun _ _ h => (h.memRead _ _ _).bind fun _ _ h => (h.popFrame _).retire _ _ (quiet_inside s)

theorem Inv.runPopn {s : State} (h : Inv s) (px : Bool) (m : BitVec 4) (o : Word) (n : Nat) :
    (runPopn px m o n s).Leaves Inv :=
  (h.raiseIf _ _).bind fun _ _ h => (h.popFrame _).retire _ _ (quiet_inside s)

theorem Inv.frameTarget {s : State} (h : Inv s) (m : BitVec 4) (o : Word) : (frameTarget m o s).Leaves Inv := by
  unfold Machine.frameTarget
  split
  · exact h.memRead _ _ _
  · exact h
  · exact h.memRead _ _ _
  · exact h
  · exact h

theorem Inv.checkStore {s : State} (h : Inv s) (a : Word) : (checkStore a s).Leaves Inv := by
  have ht := h.dataAddress false .write (pswX s.psw) a
  unfold Machine.checkStore
  split <;> rename_i e <;> (rw [e] at ht; exact ht)

theorem Inv.checkFrame {s : State} (h : Inv s) : (checkFrame s).Leaves Inv := by
  unfold Machine.checkFrame
  split
  · trivial
  · exact h

theorem Inv.memoryQuad {s : State} (h : Inv s) (u : Bool) (a : Word) : (memoryQuad u a s).Leaves Inv :=
  (h.dataAddress _ _ _ _).bind fun _ _ h => h.dataWords _ _

theorem Inv.loadQuad {s : State} (h : Inv s) (a : Word) (ws : List Word) : Inv (loadQuad a ws s) := h.commitWords _ _

theorem Inv.catchQuads (t : Word) (n : Nat) {s : State} (h : Inv s) : (catchQuads t n s).Leaves Inv := by
  induction n generalizing s with
  | zero => exact h
  | succ k ih =>
    unfold Machine.catchQuads
    split
    · refine (h.checkStore _).bind fun _ _ h => (h.memoryQuad _ _).bind fun ws _ h => ih ((h.loadQuad _ ws).setMsp ?_)
      exact quadAlign_add _ _ h.msp quad16
    · exact h

theorem Inv.runCatch {s : State} (h : Inv s) (px : Bool) (m : BitVec 4) (o : Word) (n : Nat) :
    (runCatch px m o n s).Leaves Inv := by
  refine (h.checkMonadic _).bind fun _ _ h => ?_
  split
  · exact h.retire _ _ (quiet_inside _)
  · exact h.checkFrame.bind fun _ _ h => (h.frameTarget _ _).bind fun _ _ h => (Inv.catchQuads _ _ h).bind fun _ _ h =>
      h.retire _ _ (quiet_inside _)

theorem Inv.unknownCells {s : State} (h : Inv s) : Inv (unknownCells s) := by
  have key : ∀ c : Bool, Inv (if c = true then Machine.scrambleCells (fun _ => true) s else s) := by
    intro c
    cases c
    · exact h
    · exact h.scrambleCells _
  exact key _

theorem Inv.exposeCells {s : State} (h : Inv s) (t sp : Word) : Inv (exposeCells t sp s) := h.scrambleCells _

/-- A stack instruction's end, and any flags it wrote. -/
theorem Inv.enterDone {s : State} (h : Inv s) (t : Word) (s0 : State) : (enterDone t s0 s).Leaves Inv :=
  (h.putPsw flagE true (by unfold InPsw; decide)).retire _ _ (InPsw.e true)

theorem Inv.flushQuad {s : State} (h : Inv s) : (flushQuad s).Leaves Inv := by
  have ha := quadAlign_sub _ _ h.msp quad16
  exact (h.dataAddress _ _ _ _).bind fun pa t h => (h.claim _ _ _).bind fun _ _ h => (Inv.commitWords _ _ h).setMsp ha

theorem Inv.flushQuads (t : Option Word) (n : Nat) {s : State} (h : Inv s) : (flushQuads t n s).Leaves Inv := by
  induction n generalizing s with
  | zero => exact h
  | succ k ih =>
    unfold Machine.flushQuads
    exact .ite (h.flushQuad.bind fun _ _ h => ih h) h

theorem Inv.enterIsp {s : State} (h : Inv s) (n t : Word) (s0 : State) : (enterIsp n t s0 s).Leaves Inv :=
  (h.checkStore _).bind fun _ _ h => (Inv.setCsp h _).enterDone _ _

theorem Inv.enterEmpty {s : State} (h : Inv s) (n t : Word) (s0 : State) (ht : quadAlign t = t) :
    (enterEmpty n t s0 s).Leaves Inv :=
  (Inv.flushQuads _ _ h.unknownCells).bind fun _ _ h => (h.checkStore _).bind fun _ _ h =>
    ((Inv.setCsp h _).setMsp ht).enterDone _ _

theorem quad256 : quadAlign 256#32 = 256#32 := by decide

theorem Inv.enterOffset {s : State} (h : Inv s) (n t : Word) (s0 : State) (ht : quadAlign t = t) :
    (enterOffset n t s0 s).Leaves Inv := by
  refine (Inv.flushQuads _ _ h.unknownCells).bind fun _ s h => ?_
  have hm : quadAlign (if scSize < (s.msp - t).toNat then t + 256#32 else s.msp) =
      if scSize < (s.msp - t).toNat then t + 256#32 else s.msp := by
    split
    · exact quadAlign_add _ _ ht quad256
    · exact h.msp
  exact (h.checkStore _).bind fun _ t h => (Res.Leaves.ite (a := .ok () t) h (h.checkStore _)).bind fun _ _ h =>
    (((Inv.setCsp h _).setMsp hm).exposeCells _ _).enterDone _ _

theorem Inv.restoreLost {s : State} (h : Inv s) : Inv (restoreLost s).2.2 := by
  have h1 := (h.drawSublist (lostEntries s.recent s.dataTlb)).setDataTlb
    ((Machine.drawSublist (lostEntries s.recent s.dataTlb) s).1 ++
      (Machine.drawSublist (lostEntries s.recent s.dataTlb) s).2.dataTlb)
  unfold Machine.restoreLost
  dsimp only
  split
  · split
    · exact h1.drawBit.setDataNpsr _
    · exact h1.drawBit
  · exact h1

theorem Inv.dropLost {s : State} (h : Inv s) (es : List TlbEntry) (n : Option Npsr) : Inv (dropLost es n s) := by
  unfold Machine.dropLost
  dsimp only
  split
  · exact (h.setDataTlb _).setDataNpsr _
  · exact h.setDataTlb _

theorem Inv.checkEnter {s : State} (h : Inv s) (m : BitVec 4) (o : Word) (n : Nat) :
    (checkEnter m o n s).Leaves Inv := by
  unfold Machine.checkEnter
  repeat' split
  all_goals first | exact h | trivial

theorem Inv.enterWith {s : State} (h : Inv s) (next : Word) (m : BitVec 4) (o : Word) (s0 : State) :
    (enterWith next m o s0 s).Leaves Inv :=
  (h.frameTarget _ _).bind fun v _ h => Res.Leaves.ite (h.enterIsp _ _ _) (.ite
    (h.enterOffset _ _ _ (quadAlign_quadAlign v)) (h.enterEmpty _ _ _ (quadAlign_quadAlign v)))

theorem Inv.runEnter {s : State} (h : Inv s) (px : Bool) (m : BitVec 4) (o : Word) (n : Nat) :
    (runEnter px m o n s).Leaves Inv :=
  (h.checkEnter _ _ _).bind fun _ _ h => h.checkFrame.bind fun _ _ h =>
    (h.restoreLost.enterWith _ _ _ _).after fun _ h => h.dropLost _ _

theorem Inv.wordOperand {s : State} (h : Inv s) (m : BitVec 4) (o : Word) : (wordOperand m o s).Leaves Inv :=
  (h.raiseIf _ _).bind fun _ _ h => (h.locate _ _ _).bind fun _ _ h => h.readPlace _ _

theorem Inv.runKcall {s : State} (h : Inv s) (px : Bool) (m : BitVec 4) (o : Word) (n : Nat) :
    (runKcall px m o n s).Leaves Inv :=
  (h.checkMonadic _).bind fun _ _ h => (h.wordOperand _ _).bind fun _ _ h => (h.sequenceWrite _ _).bind fun _ _ h =>
    (h.pushFrame _).bind fun _ _ h => (h.enterKernel _).bind fun _ _ h => h.retire _ _ InPsw.flagMask

theorem Inv.runKret {s : State} (h : Inv s) : (runKret s).Leaves Inv :=
  (h.raiseIf _ _).bind fun _ _ h => (h.sequenceRead _).bind fun _ _ h => (h.sequenceRead _).bind fun _ _ h =>
    h.leaveKernel _ _

theorem Inv.fillQuads (u : Bool) (a : Word) (n : Nat) {s : State} (h : Inv s) : (fillQuads u a n s).Leaves Inv := by
  induction n generalizing a s with
  | zero => exact h
  | succ k ih => exact (h.memoryQuad _ _).bind fun _ _ h => ih _ (h.loadQuad _ _)

theorem quad_times (k : Nat) : quadAlign (BitVec.ofNat 32 (16 * k)) = BitVec.ofNat 32 (16 * k) := by
  rw [quadAligned_iff]
  simp only [BitVec.toNat_ofNat]
  omega

theorem abandonedMsp_quad (base sp msp : Word) (s : State) (hs : quadAlign base = base) :
    quadAlign (abandonedMsp base sp msp s).1 = (abandonedMsp base sp msp s).1 := by
  unfold abandonedMsp
  split
  · exact quadAlign_add _ _ hs (quad_times _)
  · exact quadAlign_quadAlign _

theorem Inv.abandonedMsp {s : State} (h : Inv s) (base sp msp : Word) : Inv (abandonedMsp base sp msp s).2 := by
  unfold Machine.abandonedMsp
  split
  · exact h.drawBelow (quadsAbove base + 1)
  · exact h.drawWord

theorem Inv.abandonFill {s : State} (h : Inv s) (sp msp : Word) (vp : Bool) (hs : quadAlign sp = sp) :
    Inv (abandonFill sp msp vp s) := by
  have hb : quadAlign (if pswCSP s.psw then s.shad else sp) = if pswCSP s.psw then s.shad else sp := by
    split
    · exact h.shad
    · exact hs
  exact ((((h.setSp hs).setVpEff vp).abandonedMsp _ sp msp).setMsp (abandonedMsp_quad _ _ _ _ hb)).scrambleCells _

theorem Inv.cretFill {s : State} (h : Inv s) (sp m p : Word) (hs : quadAlign sp = sp) :
    (cretFill sp m p s).Leaves Inv := by
  unfold Machine.cretFill
  split
  · exact ((Inv.fillQuads _ _ _ (h.setVpEff _)).onTrap fun _ h => h.abandonFill _ _ _ hs).bind fun _ _ h => h.setVpEff _
  · exact h.scrambleCells _

theorem Inv.runCret {s : State} (h : Inv s) : (runCret s).Leaves Inv := by
  refine (h.raiseIf _ _).bind fun _ _ h => (h.sequenceRead _).bind fun w _ h => ?_
  have hs := quadAlign_quadAlign w
  exact ((h.sequenceRead _).onTrap fun _ h => h.setSp hs).bind fun m _ h =>
    ((h.sequenceRead _).onTrap fun _ h => h.setSp hs).bind fun _ _ h =>
      (h.cretFill _ _ _ hs).bind fun _ _ h =>
        (((h.setSp hs).setMsp (quadAlign_quadAlign m)).sequenceRead _).bind fun _ _ h => h.leaveKernel _ _

theorem Inv.runTest {s : State} (h : Inv s) (i : Nat) (hi : InPsw (flagBit i true)) : (runTest i s).Leaves Inv :=
  (h.setPsw (InPsw.putBit (InPsw.putBit h.psw flagF _ (InPsw.f true)) i false hi)).retire _ _ ((InPsw.f true).or hi)

theorem Inv.flushOperand {s : State} (h : Inv s) (m : BitVec 4) (o : Word) : (flushOperand m o s).Leaves Inv :=
  (h.raiseIf _ _).bind fun _ _ h => h.effectiveAddress _

theorem Inv.runFlushpte {s : State} (h : Inv s) (px : Bool) (m : BitVec 4) (o : Word) (n : Nat) :
    (runFlushpte px m o n s).Leaves Inv :=
  (h.checkMonadic _).bind fun _ _ h => (h.flushOperand _ _).bind fun _ _ h => (h.flushPage _).retire _ _ InPsw.zero

theorem Inv.flushTarget {s : State} (h : Inv s) (va : Word) : (flushTarget va s).Leaves Inv :=
  (Res.Leaves.ite (b := .ok () s) (h.readAhead _) h).bind fun _ _ h => h.flushAddress _

theorem Inv.runFlushpbe {s : State} (h : Inv s) (px : Bool) (m : BitVec 4) (o : Word) (n : Nat) :
    (runFlushpbe px m o n s).Leaves Inv := by
  refine (h.checkMonadic _).bind fun _ _ h => (h.flushOperand _ _).bind fun _ _ h => (h.flushTarget _).bind fun pa _ h => ?_
  cases pa with
  | some pa => exact ((h.setPfbStale _).setPfbQuads _).retire _ _ (quiet_inside _)
  | none => exact h.retire _ _ (quiet_inside _)

/-- Every operation, whatever its operands, keeps the invariant, also where it raises an event. -/
theorem Inv.run {s : State} (h : Inv s) (v : View) (px : Bool) : (v.run px s).Leaves Inv := by
  cases v with
  | dyadic op f =>
    cases op with
    | binary op acc => exact h.runBinary op acc px f
    | lock op => exact h.runLock op px f
    | compare op => exact h.runCompare op px f
    | tagged op => exact h.runTagged op px f
    | mov => exact h.runMov px f
    | mova => exact h.runMova px f
    | dqm => exact h.runDqm px f
    | unimplemented => exact h.runUnimplementedDyadic px f
  | monadic op m o n =>
    cases op with
    | kcall => exact h.runKcall px m o n
    | call => exact h.runCall px m o n
    | ret => exact h.runReturn m o
    | jmp => exact h.runJmp m o
    | jmpIf b => exact h.runJmpIf b px m o n
    | catching => exact h.runCatch px m o n
    | enter => exact h.runEnter px m o n
    | ldraa => exact h.runLdraa px m o n
    | flushpte => exact h.runFlushpte px m o n
    | flushpbe => exact h.runFlushpbe px m o n
    | popn => exact h.runPopn px m o n
    | unimplemented => exact (h.checkMonadic m).bind fun _ _ h => h.unimplementedSequence _
  | niladic op =>
    cases op with
    | kret => exact h.runKret
    | nop => exact h.retire _ _ (quiet_inside s)
    | flushi => exact ((h.setIcStale _).setTextMaps _).retire _ _ (quiet_inside s)
    | flushp => exact ((h.setPfbStale _).setPfbQuads _).retire _ _ (quiet_inside s)
    | cret => exact h.runCret
    | testv => exact h.runTest flagV (InPsw.v true)
    | testc => exact h.runTest flagC (InPsw.c true)
    | clre => exact (h.putPsw flagE false (InPsw.e true)).retire _ _ (InPsw.e true)
    | unimplemented => exact h.unimplementedSequence _
    | trapped => exact h.unimplementedSequence _

end Sys2Proof.Machine
end

