-- ==== Sys2Proof/Laws/Frame.lean ====
section
/-! SUPPORT. What the shared operations leave alone: whatever is closed under the changes that translations (`Walks`) and
accesses (`Loose`) make, and, with physical addressing, whatever is closed under drawing free values (`Still`). -/

namespace Sys2Proof.Machine

/-- A property that no data translation can end: it does not depend on memory, stale text, the data translations, the
free supply, or the bus inputs to come. -/
structure Walks (P : State → Prop) : Prop where
  free     : ∀ s v, P s → P (s.setFree v)
  mem      : ∀ s v, P s → P (s.setMem v)
  pfbStale : ∀ s v, P s → P (s.setPfbStale v)
  icStale  : ∀ s v, P s → P (s.setIcStale v)
  dataTlb  : ∀ s v, P s → P (s.setDataTlb v)
  dataNpsr : ∀ s v, P s → P (s.setDataNpsr v)
  turns    : ∀ s v, P s → P (s.setTurns v)

/-- A property that does not depend on the text translations either. -/
structure WalksText (P : State → Prop) : Prop where
  textTlb  : ∀ s v, P s → P (s.setTextTlb v)
  textNpsr : ∀ s v, P s → P (s.setTextNpsr v)

/-- A property that no access to memory can end: it does not depend on the stack cache and the count of unreported
stores, nor on what the prefetch unit does. -/
structure Loose (P : State → Prop) : Prop extends Walks P, WalksText P where
  cache       : ∀ s v, P s → P (s.setCache v)
  writeFaults : ∀ s v, P s → P (s.setWriteFaults v)
  textMaps    : ∀ s v, P s → P (s.setTextMaps v)
  pfbQuads    : ∀ s v, P s → P (s.setPfbQuads v)
  ahead       : ∀ s v, P s → P (s.setAhead v)

theorem raiseIf_leaves {P : State → Prop} {s : State} (h : P s) (c : Bool) (t : Trap) : (raiseIf c t s).Leaves P := by
  cases c <;> exact h

theorem orReset_leaves {α : Type} {P : State → Prop} {r : Res α} (h : r.Leaves P) : (orReset r).Leaves P := by
  unfold orReset
  split <;> exact h

theorem checkAccess_leaves {P : State → Prop} {s : State} (h : P s) (va : Word) (n : Nat) :
    (checkAccess va n s).Leaves P := raiseIf_leaves h _ _

theorem checkForm_leaves {P : State → Prop} {s : State} (h : P s) (px : Bool) (u : DstUse) (f : Form) :
    (checkForm px u f s).Leaves P := by
  unfold checkForm
  repeat' split
  all_goals first | exact h | trivial

namespace Walks

variable {P : State → Prop} (L : Walks P) {s : State}
include L

theorem drawBit (h : P s) : P (drawBit s).2 := L.free _ _ h
theorem drawWord (h : P s) : P (drawWord s).2 := L.free _ _ h
theorem drawIf (c : Bool) (h : P s) : P (drawIf c s).2 := by
  unfold Machine.drawIf
  split
  · exact L.drawBit h
  · exact h
theorem drawBelow (n : Nat) (h : P s) : P (drawBelow n s).2 := L.free _ _ h

theorem drawMix (m a b : Word) (h : P s) : P (drawMix m a b s).2 := by
  unfold Machine.drawMix
  split
  · exact h
  · exact L.drawWord h

theorem drawSublist {α : Type} (xs : List α) (h : P s) : P (drawSublist xs s).2 := by
  induction xs generalizing s with
  | nil => exact h
  | cons x rest ih => exact ih (L.drawBit h)

theorem physStore (pa : Word) (n : Nat) (v : Word) (h : P s) : P (physStore pa n v s) :=
  L.mem _ _ (L.icStale _ _ (L.pfbStale _ _ h))

theorem otherMasters (ws : List Host.Cell) (h : P s) : P (otherMasters ws s) := by
  induction ws generalizing s with
  | nil => exact h
  | cons c rest ih =>
    refine ih ?_
    split
    · exact L.physStore _ _ _ h
    · exact h

theorem busTurn (l : Bool) (pa : Word) (h : P s) : P (busTurn l pa s).2 := by
  unfold Machine.busTurn
  split
  · exact h
  · dsimp only
    split
    · exact L.turns _ _ h
    · exact L.otherMasters _ (L.turns _ _ h)

theorem physRead (l : Bool) (t : Trap) (pa : Word) (h : P s) : (physRead l t pa s).Leaves P := by
  have hb := L.busTurn l pa h
  unfold Machine.physRead
  dsimp only
  split <;> first | exact hb | trivial

theorem readLine (pa : Word) (h : P s) : (readLine pa s).Leaves P :=
  readLine_leaves (fun l t a _ h => L.physRead l t a h) pa h

theorem maybeForget (va : Word) (m : Mapping) (h : P s) : P (maybeForget va m s).2 := by
  unfold Machine.maybeForget
  split
  · exact h
  · exact L.drawBit h

theorem cachedMapping (k : Kind) (va : Word) (h : P s) : P (cachedMapping k va s).2 := by
  unfold Machine.cachedMapping
  split
  · exact h
  · exact L.maybeForget _ _ h
  · exact L.maybeForget _ _ h
  · exact L.maybeForget _ _ (L.drawBit h)

theorem makeRoom (p : BitVec 20) (tlb : List TlbEntry) (h : P s) : P (makeRoom p tlb s).2 := by
  unfold Machine.makeRoom
  dsimp only
  split
  · exact h
  · exact L.drawBelow tlbSize h

theorem loadTlb (k : Kind) (H : k = .text → WalksText P) (e : TlbEntry) (h : P s) : P (loadTlb k e s) := by
  unfold Machine.loadTlb
  dsimp only
  split
  · exact (H ‹_›).textTlb _ _ (L.makeRoom _ _ h)
  · exact L.dataTlb _ _ (L.makeRoom _ _ h)

theorem loadNpsr (k : Kind) (H : k = .text → WalksText P) (e : Npsr) (h : P s) : P (loadNpsr k e s) := by
  unfold Machine.loadNpsr
  split
  · exact (H ‹_›).textNpsr _ _ h
  · exact L.dataNpsr _ _ h

theorem writeBack (pa old new : Word) (h : P s) : (writeBack pa old new s).Leaves P := by
  have hb := L.busTurn true pa h
  unfold Machine.writeBack
  dsimp only
  split
  · exact h
  · split
    · exact L.physStore _ _ _ hb
    · exact hb
    · trivial
    · exact hb

theorem walkPage (l : Bool) (k : Kind) (H : k = .text → WalksText P) (u : Bool) (va ste : Word) (h : P s) : (walkPage l k u va ste s).Leaves P := by
  unfold Machine.walkPage
  refine (L.physRead _ _ _ h).bind fun pte s h => ?_
  split
  · exact h
  · exact (L.writeBack _ _ _ h).bind fun _ _ h => L.loadTlb _ H _ h

theorem walk (l : Bool) (k : Kind) (H : k = .text → WalksText P) (u : Bool) (va : Word) (h : P s) : (walk l k u va s).Leaves P := by
  unfold Machine.walk
  refine (L.physRead _ _ _ h).bind fun ste s h => ?_
  split
  · exact h
  · split
    · exact L.loadNpsr _ H _ h
    · exact L.walkPage _ _ H _ _ _ h

theorem resolve (l : Bool) (k : Kind) (H : k = .text → WalksText P) (u : Bool) (va : Word) (h : P s) : (resolve l k u va s).Leaves P := by
  unfold Machine.resolve
  split
  · exact h
  · have hc := L.cachedMapping k va h
    dsimp only
    refine Res.Leaves.bind ?_ fun m s h => ?_
    · split
      · split
        · exact L.walk _ _ H _ _ hc
        · exact hc
      · exact L.walk _ _ H _ _ hc
    · split <;> exact h

theorem speculateAt (va : Word) (h : P s) : (speculateAt va s).Leaves P := by
  unfold Machine.speculateAt
  split
  · exact h
  · have ht : (Machine.translate .read (pswX s.psw) va s).Leaves P :=
      (L.resolve false .read (fun e => nomatch e) _ va h).bind fun _ _ h => h
    exact dropped_leaves (ht.bind fun _ _ h => L.physRead _ _ _ h)

theorem speculateMany (n : Nat) (h : P s) : (speculateMany n s).Leaves P := by
  induction n generalizing s with
  | zero => exact h
  | succ k ih => exact (L.speculateAt _ (L.drawWord h)).bind fun _ _ h => ih h

theorem speculate (d : Machine.Done) (h : P s) : (speculate d s).Leaves P := by
  unfold Machine.speculate
  split
  · exact L.speculateMany _ (L.drawWord h)
  · exact h

end Walks

namespace Loose

variable {P : State → Prop} (L : Loose P) {s : State}
include L

theorem resolve (l : Bool) (k : Kind) (u : Bool) (va : Word) (h : P s) : (resolve l k u va s).Leaves P :=
  L.toWalks.resolve l k (fun _ => L.toWalksText) u va h

theorem translateIn (l : Bool) (k : Kind) (u : Bool) (va : Word) (h : P s) : (translateIn l k u va s).Leaves P :=
  (L.resolve _ _ _ _ h).bind fun _ _ h => h

theorem textReads : TextReads P where
  free := L.free
  textMaps := L.textMaps
  pfbQuads := L.pfbQuads
  ahead := L.ahead
  resolve va _ h := L.resolve _ _ _ va h
  readLine pa _ h := L.readLine pa h

theorem readAhead (l : Bool) (h : P s) : (readAhead l s).Leaves P := L.textReads.readAhead l h

theorem prefetch (hreset : Bool) (h : P s) : (prefetch hreset s).Leaves P := L.textReads.prefetch hreset h

theorem dataAddress (l : Bool) (k : Kind) (u : Bool) (va : Word) (h : P s) : (dataAddress l k u va s).Leaves P :=
  (L.readAhead l h).bind fun _ _ h => L.translateIn _ _ _ _ h

theorem scrambleCells (p : Fin 64 → Bool) (h : P s) : P (scrambleCells p s) := L.free _ _ (L.cache _ _ h)

theorem flushTranslations (h : P s) : P (flushTranslations s) :=
  L.dataNpsr _ _ (L.dataTlb _ _ (L.textNpsr _ _ (L.textTlb _ _ h)))

theorem flushPage (va : Word) (h : P s) : P (flushPage va s) :=
  L.dataNpsr _ _ (L.textNpsr _ _ (L.dataTlb _ _ (L.textTlb _ _ h)))

theorem useCache (acc : Access) (va : Word) (h : P s) : P (useCache acc va s).2 := by
  unfold Machine.useCache
  split
  · exact L.drawBit (L.scrambleCells _ h)
  · split
    · split
      · exact L.drawBit h
      · exact h
    · exact h

theorem memRead (acc : Access) (va : Word) (n : Nat) (h : P s) : (memRead acc va n s).Leaves P := by
  unfold Machine.memRead
  refine (checkAccess_leaves h _ _).bind fun _ s h => ?_
  have hu := L.useCache acc va h
  dsimp only
  split
  · exact hu
  · exact (L.dataAddress _ _ _ _ hu).bind fun pa s h => (L.readAhead _ h).bind fun _ s h =>
      (L.physRead _ _ _ h).bind fun w s h => h

theorem prepWrite (acc : Access) (va : Word) (n : Nat) (h : P s) : (prepWrite acc va n s).Leaves P := by
  unfold Machine.prepWrite
  refine (checkAccess_leaves h _ _).bind fun _ s h => ?_
  have hu := L.useCache acc va h
  dsimp only
  split
  · exact hu
  · exact (L.dataAddress _ _ _ _ hu).bind fun pa s h => h

theorem takenWords (n : Nat) (acc : Access) (pa : Word) (h : P s) : (takenWords acc pa n s).Leaves P := by
  induction n generalizing acc pa s with
  | zero => exact h
  | succ k ih =>
    have hb := L.busTurn acc.locked pa h
    unfold Machine.takenWords
    dsimp only
    split
    · exact (ih _ _ hb).bind fun _ _ h => h
    · split <;> exact hb
    · trivial
    · exact hb

theorem claim (acc : Access) (t : Target) (n : Nat) (h : P s) : (claim acc t n s).Leaves P := by
  cases t with
  | cell va => exact h
  | phys pa => exact (L.readAhead _ h).bind fun _ _ h => (L.takenWords _ _ _ h).bind fun _ _ h => h

theorem commit (g : Grant) (n : Nat) (v : Word) (h : P s) : P (commit g n v s) := by
  unfold Machine.commit
  cases g with
  | cell va => exact L.cache _ _ h
  | phys pa k =>
    dsimp only
    split
    · exact L.writeFaults _ _ h
    · exact L.physStore _ _ _ h

theorem memWrite (acc : Access) (va : Word) (n : Nat) (v : Word) (h : P s) : (memWrite acc va n v s).Leaves P :=
  (L.prepWrite acc va n h).bind fun t _ h => (L.claim acc t 1 h).bind fun g _ h => L.commit g n v h

theorem sequenceRead (va : Word) (h : P s) : (sequenceRead va s).Leaves P := orReset_leaves (L.memRead _ _ _ h)

theorem sequenceWrite (va v : Word) (h : P s) : (sequenceWrite va v s).Leaves P := orReset_leaves (L.memWrite _ _ _ _ h)

theorem stalePsw (w : List Recent) (p : Word) (h : P s) : P (stalePsw w p s).2 := by
  induction w generalizing p s with
  | nil => exact h
  | cons r rest ih => exact ih _ (L.drawMix _ _ _ h)

theorem staleShad (w : List Recent) (v : Word) (h : P s) : P (staleShad w v s).2 := by
  induction w generalizing v s with
  | nil => exact h
  | cons r rest ih =>
    unfold Machine.staleShad
    split
    · exact ih _ h
    · exact ih _ (L.drawBit h)

theorem readRegister (r : Reg) (h : P s) : P (readRegister r s).2 := by
  cases r <;> first | exact h | exact L.stalePsw _ _ h | exact L.staleShad _ _ h

theorem staleSubword (w : List Recent) (who : Reader) (va : Word) (n : Nat) (v : Word) (h : P s) :
    P (staleSubword w who va n v s).2 := by
  induction w generalizing v s with
  | nil => exact h
  | cons r rest ih =>
    unfold Machine.staleSubword
    split
    · exact ih _ h
    · split
      · exact ih _ (L.drawBit h)
      · exact ih _ h

theorem locate (px : Bool) (n : Nat) (o : Operand) (h : P s) : (locate px n o s).Leaves P := by
  unfold Machine.locate
  split
  · exact h
  · exact h
  · exact (L.memRead _ _ _ h).bind fun _ _ h => (raiseIf_leaves h _ _).bind fun _ _ h => h
  · exact h
  · split <;> exact h
  · exact h

theorem readPlace (who : Reader) (p : Place) (h : P s) : (readPlace who p s).Leaves P := by
  cases p with
  | constant v => exact h
  | register r => exact L.readRegister r h
  | memory acc va n sg => exact (L.memRead _ _ _ h).bind fun _ _ h => L.staleSubword _ _ _ _ _ h

theorem prepPlace (il : Bool) (p : Place) (h : P s) : (prepPlace il p s).Leaves P := by
  cases p with
  | constant v => exact h
  | register r => exact h
  | memory acc va n sg => exact (L.prepWrite _ _ _ h).bind fun _ _ h => h

theorem openForm (px : Bool) (u : DstUse) (f : Form) (h : P s) : (openForm px u f s).Leaves P :=
  (checkForm_leaves h px u f).bind fun _ _ h => (raiseIf_leaves h _ _).bind fun _ _ h =>
    (L.locate _ _ _ h).bind fun _ _ h => (L.locate _ _ _ h).bind fun _ _ h => h

theorem claimDest (d : Dest) (h : P s) : (claimDest d s).Leaves P := by
  cases d with
  | register r => exact h
  | memory acc t n => exact (L.claim _ _ _ h).bind fun _ _ h => h

theorem physWords (n : Nat) (l : Bool) (pa : Word) (h : P s) : (physWords l pa n s).Leaves P := by
  induction n generalizing l pa s with
  | zero => exact h
  | succ k ih => exact (L.physRead _ _ _ h).bind fun _ _ h => (ih _ _ h).bind fun _ _ h => h

theorem dataWords (pa : Word) (n : Nat) (h : P s) : (dataWords pa n s).Leaves P :=
  (L.readAhead _ h).bind fun _ _ h => L.physWords _ _ _ h

theorem readWords (acc : Access) (va : Word) (n : Nat) (h : P s) : (readWords acc va n s).Leaves P := by
  unfold Machine.readWords
  refine (checkAccess_leaves h _ _).bind fun _ s h => ?_
  have hu := L.useCache acc va h
  dsimp only
  split
  · exact hu
  · exact (L.dataAddress _ _ _ _ hu).bind fun pa s h => L.dataWords _ _ h

theorem commitWords (ws : List Word) (g : Grant) (h : P s) : P (commitWords g ws s) := by
  induction ws generalizing g s with
  | nil => exact h
  | cons w rest ih =>
    cases g with
    | cell va => exact ih _ (L.cache _ _ h)
    | phys pa k =>
      cases k with
      | zero => exact L.writeFaults _ _ h
      | succ k => exact ih _ (L.physStore _ _ _ h)

theorem flowTarget (m : BitVec 4) (o : Word) (h : P s) : (flowTarget m o s).Leaves P := by
  unfold Machine.flowTarget
  split
  · exact L.memRead _ _ _ h
  · exact L.memRead _ _ _ h
  · exact h
  · exact h
  · exact h

theorem frameTarget (m : BitVec 4) (o : Word) (h : P s) : (frameTarget m o s).Leaves P := by
  unfold Machine.frameTarget
  split
  · exact L.memRead _ _ _ h
  · exact h
  · exact L.memRead _ _ _ h
  · exact h
  · exact h

theorem effectiveAddress (o : Operand) (h : P s) : (effectiveAddress o s).Leaves P := by
  unfold Machine.effectiveAddress
  split
  · exact h
  · exact h
  · exact L.memRead _ _ _ h
  · exact h
  · exact h

theorem checkStore (a : Word) (h : P s) : (checkStore a s).Leaves P := by
  have ht := L.dataAddress false .write (pswX s.psw) a h
  unfold Machine.checkStore
  split <;> rename_i e <;> (rw [e] at ht; exact ht)

theorem memoryQuad (u : Bool) (a : Word) (h : P s) : (memoryQuad u a s).Leaves P :=
  (L.dataAddress _ _ _ _ h).bind fun _ _ h => L.dataWords _ _ h

theorem restoreLost (h : P s) : P (restoreLost s).2.2 := by
  have h1 := L.dataTlb _ ((Machine.drawSublist (lostEntries s.recent s.dataTlb) s).1 ++
      (Machine.drawSublist (lostEntries s.recent s.dataTlb) s).2.dataTlb)
    (L.drawSublist (lostEntries s.recent s.dataTlb) h)
  unfold Machine.restoreLost
  dsimp only
  split
  · split
    · exact L.dataNpsr _ _ (L.drawBit h1)
    · exact L.drawBit h1
  · exact h1

theorem dropLost (es : List TlbEntry) (n : Option Npsr) (h : P s) : P (dropLost es n s) := by
  unfold Machine.dropLost
  dsimp only
  split
  · exact L.dataNpsr _ _ (L.dataTlb _ _ h)
  · exact L.dataTlb _ _ h

end Loose

/-- A property that accesses cannot end before their writes: physical addressing, a usable stack cache window, and no
bus input to come. -/
structure Still (P : State → Prop) : Prop where
  free     : ∀ s v, P s → P (s.setFree v)
  textMaps : ∀ s v, P s → P (s.setTextMaps v)
  pfbQuads : ∀ s v, P s → P (s.setPfbQuads v)
  ahead    : ∀ s v, P s → P (s.setAhead v)
  physical : ∀ s, P s → s.vpEff = false
  usable   : ∀ s, P s → usable s = true
  turns    : ∀ s, P s → s.turns = []

namespace Still

variable {P : State → Prop} (L : Still P) {s : State}
include L

theorem drawBit (h : P s) : P (drawBit s).2 := L.free _ _ h
theorem drawWord (h : P s) : P (drawWord s).2 := L.free _ _ h

theorem drawMix (m a b : Word) (h : P s) : P (drawMix m a b s).2 := by
  unfold Machine.drawMix
  split
  · exact h
  · exact L.drawWord h

theorem busTurn (l : Bool) (pa : Word) (h : P s) : (busTurn l pa s).2 = s := by
  simp [Machine.busTurn, L.turns _ h]

theorem physRead (l : Bool) (t : Trap) (pa : Word) (h : P s) : (physRead l t pa s).Leaves P := by
  have hb := L.busTurn l pa h
  unfold Machine.physRead
  dsimp only
  rw [hb]
  split <;> first | exact h | trivial

theorem useCache (acc : Access) (va : Word) (h : P s) : P (useCache acc va s).2 := by
  have hw : (configSC s.configEff && !windowOk s) = false := by
    have hu := L.usable _ h
    unfold Machine.usable at hu
    revert hu; cases configSC s.configEff <;> cases windowOk s <;> simp
  unfold Machine.useCache
  rw [hw]
  simp only [Bool.false_eq_true, if_false]
  split
  · split
    · exact L.drawBit h
    · exact h
  · exact h

theorem translateIn (l : Bool) (k : Kind) (u : Bool) (va : Word) (h : P s) : (translateIn l k u va s).Leaves P := by
  rw [translateIn_physical _ _ _ _ _ (L.physical _ h)]
  exact h

theorem textReads : TextReads P where
  free := L.free
  textMaps := L.textMaps
  pfbQuads := L.pfbQuads
  ahead := L.ahead
  resolve va s h := by simp only [Machine.resolve, L.physical _ h]; exact h
  readLine pa _ h := readLine_leaves (fun l t a _ h => L.physRead l t a h) pa h

theorem readAhead (l : Bool) (h : P s) : (readAhead l s).Leaves P := L.textReads.readAhead l h

theorem dataAddress (l : Bool) (k : Kind) (u : Bool) (va : Word) (h : P s) : (dataAddress l k u va s).Leaves P :=
  (L.readAhead l h).bind fun _ _ h => L.translateIn _ _ _ _ h

theorem memRead (acc : Access) (va : Word) (n : Nat) (h : P s) : (memRead acc va n s).Leaves P := by
  unfold Machine.memRead
  refine (checkAccess_leaves h _ _).bind fun _ s h => ?_
  have hu := L.useCache acc va h
  dsimp only
  split
  · exact hu
  · exact (L.dataAddress _ _ _ _ hu).bind fun pa s h => (L.readAhead _ h).bind fun _ s h =>
      (L.physRead _ _ _ h).bind fun w s h => h

theorem sequenceRead (va : Word) (h : P s) : (sequenceRead va s).Leaves P := orReset_leaves (L.memRead _ _ _ h)

theorem stalePsw (w : List Recent) (p : Word) (h : P s) : P (stalePsw w p s).2 := by
  induction w generalizing p s with
  | nil => exact h
  | cons r rest ih => exact ih _ (L.drawMix _ _ _ h)

theorem staleShad (w : List Recent) (v : Word) (h : P s) : P (staleShad w v s).2 := by
  induction w generalizing v s with
  | nil => exact h
  | cons r rest ih =>
    unfold Machine.staleShad
    split
    · exact ih _ h
    · exact ih _ (L.drawBit h)

theorem readRegister (r : Reg) (h : P s) : P (readRegister r s).2 := by
  cases r <;> first | exact h | exact L.stalePsw _ _ h | exact L.staleShad _ _ h

theorem staleSubword (w : List Recent) (who : Reader) (va : Word) (n : Nat) (v : Word) (h : P s) :
    P (staleSubword w who va n v s).2 := by
  induction w generalizing v s with
  | nil => exact h
  | cons r rest ih =>
    unfold Machine.staleSubword
    split
    · exact ih _ h
    · split
      · exact ih _ (L.drawBit h)
      · exact ih _ h

theorem locate (px : Bool) (n : Nat) (o : Operand) (h : P s) : (locate px n o s).Leaves P := by
  unfold Machine.locate
  split
  · exact h
  · exact h
  · exact (L.memRead _ _ _ h).bind fun _ _ h => (raiseIf_leaves h _ _).bind fun _ _ h => h
  · exact h
  · split <;> exact h
  · exact h

theorem readPlace (who : Reader) (p : Place) (h : P s) : (readPlace who p s).Leaves P := by
  cases p with
  | constant v => exact h
  | register r => exact L.readRegister r h
  | memory acc va n sg => exact (L.memRead _ _ _ h).bind fun _ _ h => L.staleSubword _ _ _ _ _ h

theorem prepWrite (acc : Access) (va : Word) (n : Nat) (h : P s) : (prepWrite acc va n s).Leaves P := by
  unfold Machine.prepWrite
  refine (checkAccess_leaves h _ _).bind fun _ s h => ?_
  have hu := L.useCache acc va h
  dsimp only
  split
  · exact hu
  · exact (L.dataAddress _ _ _ _ hu).bind fun pa s h => h

theorem prepPlace (il : Bool) (p : Place) (h : P s) : (prepPlace il p s).Leaves P := by
  cases p with
  | constant v => exact h
  | register r => exact h
  | memory acc va n sg => exact (L.prepWrite _ _ _ h).bind fun _ _ h => h

theorem openForm (px : Bool) (u : DstUse) (f : Form) (h : P s) : (openForm px u f s).Leaves P :=
  (checkForm_leaves h px u f).bind fun _ _ h => (raiseIf_leaves h _ _).bind fun _ _ h =>
    (L.locate _ _ _ h).bind fun _ _ h => (L.locate _ _ _ h).bind fun _ _ h => h

theorem takenWords (n : Nat) (acc : Access) (pa : Word) (h : P s) : (takenWords acc pa n s).Leaves P := by
  induction n generalizing acc pa with
  | zero => exact h
  | succ k ih =>
    have hb := L.busTurn acc.locked pa h
    unfold Machine.takenWords
    dsimp only
    rw [hb]
    split
    · exact (ih _ _).bind fun _ _ h => h
    · split <;> exact h
    · trivial
    · exact h

theorem claim (acc : Access) (t : Target) (n : Nat) (h : P s) : (claim acc t n s).Leaves P := by
  cases t with
  | cell va => exact h
  | phys pa => exact (L.readAhead _ h).bind fun _ _ h => (L.takenWords _ _ _ h).bind fun _ _ h => h

theorem claimDest (d : Dest) (h : P s) : (claimDest d s).Leaves P := by
  cases d with
  | register r => exact h
  | memory acc t n => exact (L.claim _ _ _ h).bind fun _ _ h => h

theorem physWords (n : Nat) (l : Bool) (pa : Word) (h : P s) : (physWords l pa n s).Leaves P := by
  induction n generalizing l pa s with
  | zero => exact h
  | succ k ih => exact (L.physRead _ _ _ h).bind fun _ _ h => (ih _ _ h).bind fun _ _ h => h

theorem dataWords (pa : Word) (n : Nat) (h : P s) : (dataWords pa n s).Leaves P :=
  (L.readAhead _ h).bind fun _ _ h => L.physWords _ _ _ h

theorem readWords (acc : Access) (va : Word) (n : Nat) (h : P s) : (readWords acc va n s).Leaves P := by
  unfold Machine.readWords
  refine (checkAccess_leaves h _ _).bind fun _ s h => ?_
  have hu := L.useCache acc va h
  dsimp only
  split
  · exact hu
  · exact (L.dataAddress _ _ _ _ hu).bind fun pa s h => L.dataWords _ _ h

theorem flowTarget (m : BitVec 4) (o : Word) (h : P s) : (flowTarget m o s).Leaves P := by
  unfold Machine.flowTarget
  split
  · exact L.memRead _ _ _ h
  · exact L.memRead _ _ _ h
  · exact h
  · exact h
  · exact h

theorem frameTarget (m : BitVec 4) (o : Word) (h : P s) : (frameTarget m o s).Leaves P := by
  unfold Machine.frameTarget
  split
  · exact L.memRead _ _ _ h
  · exact h
  · exact L.memRead _ _ _ h
  · exact h
  · exact h

theorem effectiveAddress (o : Operand) (h : P s) : (effectiveAddress o s).Leaves P := by
  unfold Machine.effectiveAddress
  split
  · exact h
  · exact h
  · exact L.memRead _ _ _ h
  · exact h
  · exact h

end Still

/-- What holds of the state a part leaves when it completes. -/
def Res.Done {α : Type} (P : α → State → Prop) (r : Res α) : Prop :=
  match r with
  | .ok a s => P a s
  | _ => True

theorem Res.Done.bind {α β : Type} {P : α → State → Prop} {Q : β → State → Prop} {r : Res α} {f : α → State → Res β}
    (h : r.Done P) (hf : ∀ a s, P a s → (f a s).Done Q) : (r.bind f).Done Q := by
  cases r with
  | ok a s => exact hf a s h
  | trap t s => trivial
  | halt e => trivial
  | refuse e => trivial

theorem Res.Leaves.done {α : Type} {P : State → Prop} {r : Res α} (h : r.Leaves P) : r.Done fun _ s => P s := by
  cases r <;> first | exact h | trivial

theorem raiseIf_done (c : Bool) (t : Trap) (s : State) : (raiseIf c t s).Done fun _ u => u = s ∧ c = false := by
  cases c
  · exact ⟨rfl, rfl⟩
  · trivial

/-- Every event sequence marks its end. -/
theorem takeTrap_ended (t : Trap) (s u : State) (h : takeTrap t s = .next u) : u.ended = .event := by
  have hr : ∀ b s, (resetSequence b s).ended = .event := by intro b s; cases b <;> rfl
  have hs : ∀ r : Res Unit, (r.Done fun _ u => u.ended = .event) → ∀ u, settleSequence r = .next u → u.ended = .event := by
    intro r hr' u hu
    cases r with
    | ok a s => cases hu; exact hr'
    | trap t s => cases hu; exact hr _ s
    | halt e => cases hu
    | refuse e => cases hu
  have he : ∀ t s, (exceptionSequence t s).Done fun _ u => u.ended = .event := by
    intro t s
    unfold exceptionSequence
    refine Res.Done.bind (P := fun _ _ => True) (by cases sequenceWrite _ _ _ <;> trivial) fun _ _ _ => ?_
    refine Res.Done.bind (P := fun _ _ => True) (by cases pushFrame _ _ <;> trivial) fun _ _ _ => ?_
    refine Res.Done.bind (P := fun _ _ => True) (by cases enterKernel _ _ <;> trivial) fun _ _ _ => ?_
    rfl
  cases t <;> first
    | (cases h; exact hr _ s)
    | exact hs _ (he _ _) _ h

/-- What an instruction's completed part leaves holds of a next state that no event took. -/
theorem settle_done {P : State → Prop} {r : Res Unit} (h : r.Done fun _ s => P s) {u : State}
    (hu : settle r = .next u) (he : u.ended ≠ .event) : P u := by
  cases r with
  | ok a s => cases hu; exact h
  | trap t s => exact absurd (takeTrap_ended t s u hu) he
  | halt e => cases hu
  | refuse e => cases hu

end Sys2Proof.Machine
end

