-- ==== Sys2Proof/Laws/PerInstr.lean ====
section
/-! SUPPORT. Statements about every instruction as syntax, one lemma for each constructor. -/

namespace Sys2Proof

/-- The encoder writes as many parcels as the instruction has (spec/30_encoding.md R120, R128). -/
def Laws.EncodeLength.Statement (i : Instr) : Prop := (encode i).length = i.parcels

theorem encode_length (i : Instr) : (encode i).length = i.parcels := by
  induction i with
  | cpuWide inner ih => simp only [encode, Instr.parcels, List.length_cons, ih, Nat.add_comm]
  | _ => rfl

theorem Laws.EncodeLength.kcallImm10 (f : BitVec 10) : Laws.EncodeLength.Statement (.kcallImm10 f) := rfl
theorem Laws.EncodeLength.callPc10 (f : BitVec 10) : Laws.EncodeLength.Statement (.callPc10 f) := rfl
theorem Laws.EncodeLength.enterStk8 (f : BitVec 8) : Laws.EncodeLength.Statement (.enterStk8 f) := rfl
theorem Laws.EncodeLength.catchStk8 (f : BitVec 8) : Laws.EncodeLength.Statement (.catchStk8 f) := rfl
theorem Laws.EncodeLength.returnStk8 (f : BitVec 8) : Laws.EncodeLength.Statement (.returnStk8 f) := rfl
theorem Laws.EncodeLength.popnStk8 (f : BitVec 8) : Laws.EncodeLength.Statement (.popnStk8 f) := rfl
theorem Laws.EncodeLength.jmpPc10 (f : BitVec 10) : Laws.EncodeLength.Statement (.jmpPc10 f) := rfl
theorem Laws.EncodeLength.jmpfnPc10 (f : BitVec 10) : Laws.EncodeLength.Statement (.jmpfnPc10 f) := rfl
theorem Laws.EncodeLength.jmpfyPc10 (f : BitVec 10) : Laws.EncodeLength.Statement (.jmpfyPc10 f) := rfl
theorem Laws.EncodeLength.jmptnPc10 (f : BitVec 10) : Laws.EncodeLength.Statement (.jmptnPc10 f) := rfl
theorem Laws.EncodeLength.jmptyPc10 (f : BitVec 10) : Laws.EncodeLength.Statement (.jmptyPc10 f) := rfl
theorem Laws.EncodeLength.unimpOne08 (x : BitVec 10) : Laws.EncodeLength.Statement (.unimpOne08 x) := rfl
theorem Laws.EncodeLength.unimpOne09 (x : BitVec 10) : Laws.EncodeLength.Statement (.unimpOne09 x) := rfl
theorem Laws.EncodeLength.movWS (s : BitVec 5) (d : BitVec 5) : Laws.EncodeLength.Statement (.movWS s d) := rfl
theorem Laws.EncodeLength.cpuWide (inner : Instr) : Laws.EncodeLength.Statement (.cpuWide inner) :=
  encode_length (.cpuWide inner)

theorem Laws.EncodeLength.cpuShort (next : BitVec 16) : Laws.EncodeLength.Statement (.cpuShort next) := rfl
theorem Laws.EncodeLength.kret : Laws.EncodeLength.Statement .kret := rfl
theorem Laws.EncodeLength.nop : Laws.EncodeLength.Statement .nop := rfl
theorem Laws.EncodeLength.flushi : Laws.EncodeLength.Statement .flushi := rfl
theorem Laws.EncodeLength.flushp : Laws.EncodeLength.Statement .flushp := rfl
theorem Laws.EncodeLength.cret : Laws.EncodeLength.Statement .cret := rfl
theorem Laws.EncodeLength.flushd : Laws.EncodeLength.Statement .flushd := rfl
theorem Laws.EncodeLength.testv : Laws.EncodeLength.Statement .testv := rfl
theorem Laws.EncodeLength.testc : Laws.EncodeLength.Statement .testc := rfl
theorem Laws.EncodeLength.clre : Laws.EncodeLength.Statement .clre := rfl
theorem Laws.EncodeLength.unimpNil007 : Laws.EncodeLength.Statement .unimpNil007 := rfl
theorem Laws.EncodeLength.unimpNil00B : Laws.EncodeLength.Statement .unimpNil00B := rfl
theorem Laws.EncodeLength.unimpNil00C (x : BitVec 2) : Laws.EncodeLength.Statement (.unimpNil00C x) := rfl
theorem Laws.EncodeLength.unimpNil010 (x : BitVec 4) : Laws.EncodeLength.Statement (.unimpNil010 x) := rfl
theorem Laws.EncodeLength.unimpNil020 (x : BitVec 5) : Laws.EncodeLength.Statement (.unimpNil020 x) := rfl
theorem Laws.EncodeLength.unimpNil040 (x : BitVec 6) : Laws.EncodeLength.Statement (.unimpNil040 x) := rfl
theorem Laws.EncodeLength.unimpNil080 (x : BitVec 7) : Laws.EncodeLength.Statement (.unimpNil080 x) := rfl
theorem Laws.EncodeLength.unimpNil100 (x : BitVec 8) : Laws.EncodeLength.Statement (.unimpNil100 x) := rfl
theorem Laws.EncodeLength.trappedNiladic (t : BitVec 9) : Laws.EncodeLength.Statement (.trappedNiladic t) := rfl
theorem Laws.EncodeLength.unimpOne0C (x : BitVec 10) : Laws.EncodeLength.Statement (.unimpOne0C x) := rfl
theorem Laws.EncodeLength.add3WS (s : BitVec 5) (d : BitVec 5) : Laws.EncodeLength.Statement (.add3WS s d) := rfl
theorem Laws.EncodeLength.and3CS (s : BitVec 5) (d : BitVec 5) : Laws.EncodeLength.Statement (.and3CS s d) := rfl
theorem Laws.EncodeLength.andSS (s : BitVec 5) (d : BitVec 5) : Laws.EncodeLength.Statement (.andSS s d) := rfl
theorem Laws.EncodeLength.cmpeqCS (s : BitVec 5) (d : BitVec 5) : Laws.EncodeLength.Statement (.cmpeqCS s d) := rfl
theorem Laws.EncodeLength.cmpgtSS (s : BitVec 5) (d : BitVec 5) : Laws.EncodeLength.Statement (.cmpgtSS s d) := rfl
theorem Laws.EncodeLength.cmpgtCS (s : BitVec 5) (d : BitVec 5) : Laws.EncodeLength.Statement (.cmpgtCS s d) := rfl
theorem Laws.EncodeLength.cmpeqSS (s : BitVec 5) (d : BitVec 5) : Laws.EncodeLength.Statement (.cmpeqSS s d) := rfl
theorem Laws.EncodeLength.addCS (s : BitVec 5) (d : BitVec 5) : Laws.EncodeLength.Statement (.addCS s d) := rfl
theorem Laws.EncodeLength.add3CS (s : BitVec 5) (d : BitVec 5) : Laws.EncodeLength.Statement (.add3CS s d) := rfl
theorem Laws.EncodeLength.addSS (s : BitVec 5) (d : BitVec 5) : Laws.EncodeLength.Statement (.addSS s d) := rfl
theorem Laws.EncodeLength.add3SS (s : BitVec 5) (d : BitVec 5) : Laws.EncodeLength.Statement (.add3SS s d) := rfl
theorem Laws.EncodeLength.movSS (s : BitVec 5) (d : BitVec 5) : Laws.EncodeLength.Statement (.movSS s d) := rfl
theorem Laws.EncodeLength.movIS (s : BitVec 5) (d : BitVec 5) : Laws.EncodeLength.Statement (.movIS s d) := rfl
theorem Laws.EncodeLength.movSI (s : BitVec 5) (d : BitVec 5) : Laws.EncodeLength.Statement (.movSI s d) := rfl
theorem Laws.EncodeLength.movII (s : BitVec 5) (d : BitVec 5) : Laws.EncodeLength.Statement (.movII s d) := rfl
theorem Laws.EncodeLength.movCS (s : BitVec 5) (d : BitVec 5) : Laws.EncodeLength.Statement (.movCS s d) := rfl
theorem Laws.EncodeLength.movaSS (s : BitVec 5) (d : BitVec 5) : Laws.EncodeLength.Statement (.movaSS s d) := rfl
theorem Laws.EncodeLength.shl3CS (s : BitVec 5) (d : BitVec 5) : Laws.EncodeLength.Statement (.shl3CS s d) := rfl
theorem Laws.EncodeLength.shr3CS (s : BitVec 5) (d : BitVec 5) : Laws.EncodeLength.Statement (.shr3CS s d) := rfl
theorem Laws.EncodeLength.kcallW32 (m : BitVec 4) (o : BitVec 32) : Laws.EncodeLength.Statement (.kcallW32 m o) := rfl
theorem Laws.EncodeLength.callF32 (m : BitVec 4) (o : BitVec 32) : Laws.EncodeLength.Statement (.callF32 m o) := rfl
theorem Laws.EncodeLength.returnS32 (m : BitVec 4) (o : BitVec 32) : Laws.EncodeLength.Statement (.returnS32 m o) := rfl
theorem Laws.EncodeLength.jmpF32 (m : BitVec 4) (o : BitVec 32) : Laws.EncodeLength.Statement (.jmpF32 m o) := rfl
theorem Laws.EncodeLength.jmpfnA32 (m : BitVec 4) (o : BitVec 32) : Laws.EncodeLength.Statement (.jmpfnA32 m o) := rfl
theorem Laws.EncodeLength.jmpfyA32 (m : BitVec 4) (o : BitVec 32) : Laws.EncodeLength.Statement (.jmpfyA32 m o) := rfl
theorem Laws.EncodeLength.jmptnA32 (m : BitVec 4) (o : BitVec 32) : Laws.EncodeLength.Statement (.jmptnA32 m o) := rfl
theorem Laws.EncodeLength.jmptyA32 (m : BitVec 4) (o : BitVec 32) : Laws.EncodeLength.Statement (.jmptyA32 m o) := rfl
theorem Laws.EncodeLength.catchW32 (m : BitVec 4) (o : BitVec 32) : Laws.EncodeLength.Statement (.catchW32 m o) := rfl
theorem Laws.EncodeLength.enterW32 (m : BitVec 4) (o : BitVec 32) : Laws.EncodeLength.Statement (.enterW32 m o) := rfl
theorem Laws.EncodeLength.ldraaF32 (m : BitVec 4) (o : BitVec 32) : Laws.EncodeLength.Statement (.ldraaF32 m o) := rfl
theorem Laws.EncodeLength.flushpteW32 (m : BitVec 4) (o : BitVec 32) : Laws.EncodeLength.Statement (.flushpteW32 m o) := rfl
theorem Laws.EncodeLength.flushpbeW32 (m : BitVec 4) (o : BitVec 32) : Laws.EncodeLength.Statement (.flushpbeW32 m o) := rfl
theorem Laws.EncodeLength.flushdceW32 (m : BitVec 4) (o : BitVec 32) : Laws.EncodeLength.Statement (.flushdceW32 m o) := rfl
theorem Laws.EncodeLength.unimpMonE (m : BitVec 4) (o : BitVec 32) : Laws.EncodeLength.Statement (.unimpMonE m o) := rfl
theorem Laws.EncodeLength.popnS32 (m : BitVec 4) (o : BitVec 32) : Laws.EncodeLength.Statement (.popnS32 m o) := rfl
theorem Laws.EncodeLength.unimpFive00 (sm : BitVec 4) (dm : BitVec 4) (src : BitVec 32) (dst : BitVec 32) : Laws.EncodeLength.Statement (.unimpFive00 sm dm src dst) := rfl
theorem Laws.EncodeLength.oriG16 (sm : BitVec 4) (dm : BitVec 4) (src : BitVec 16) (dst : BitVec 16) : Laws.EncodeLength.Statement (.oriG16 sm dm src dst) := rfl
theorem Laws.EncodeLength.oriG32 (sm : BitVec 4) (dm : BitVec 4) (src : BitVec 32) (dst : BitVec 32) : Laws.EncodeLength.Statement (.oriG32 sm dm src dst) := rfl
theorem Laws.EncodeLength.andiG16 (sm : BitVec 4) (dm : BitVec 4) (src : BitVec 16) (dst : BitVec 16) : Laws.EncodeLength.Statement (.andiG16 sm dm src dst) := rfl
theorem Laws.EncodeLength.andiG32 (sm : BitVec 4) (dm : BitVec 4) (src : BitVec 32) (dst : BitVec 32) : Laws.EncodeLength.Statement (.andiG32 sm dm src dst) := rfl
theorem Laws.EncodeLength.addiG16 (sm : BitVec 4) (dm : BitVec 4) (src : BitVec 16) (dst : BitVec 16) : Laws.EncodeLength.Statement (.addiG16 sm dm src dst) := rfl
theorem Laws.EncodeLength.addiG32 (sm : BitVec 4) (dm : BitVec 4) (src : BitVec 32) (dst : BitVec 32) : Laws.EncodeLength.Statement (.addiG32 sm dm src dst) := rfl
theorem Laws.EncodeLength.movaG16 (sm : BitVec 4) (dm : BitVec 4) (src : BitVec 16) (dst : BitVec 16) : Laws.EncodeLength.Statement (.movaG16 sm dm src dst) := rfl
theorem Laws.EncodeLength.movaG32 (sm : BitVec 4) (dm : BitVec 4) (src : BitVec 32) (dst : BitVec 32) : Laws.EncodeLength.Statement (.movaG32 sm dm src dst) := rfl
theorem Laws.EncodeLength.uremG16 (sm : BitVec 4) (dm : BitVec 4) (src : BitVec 16) (dst : BitVec 16) : Laws.EncodeLength.Statement (.uremG16 sm dm src dst) := rfl
theorem Laws.EncodeLength.uremG32 (sm : BitVec 4) (dm : BitVec 4) (src : BitVec 32) (dst : BitVec 32) : Laws.EncodeLength.Statement (.uremG32 sm dm src dst) := rfl
theorem Laws.EncodeLength.movG16 (sm : BitVec 4) (dm : BitVec 4) (src : BitVec 16) (dst : BitVec 16) : Laws.EncodeLength.Statement (.movG16 sm dm src dst) := rfl
theorem Laws.EncodeLength.movG32 (sm : BitVec 4) (dm : BitVec 4) (src : BitVec 32) (dst : BitVec 32) : Laws.EncodeLength.Statement (.movG32 sm dm src dst) := rfl
theorem Laws.EncodeLength.dqmG16 (sm : BitVec 4) (dm : BitVec 4) (src : BitVec 16) (dst : BitVec 16) : Laws.EncodeLength.Statement (.dqmG16 sm dm src dst) := rfl
theorem Laws.EncodeLength.dqmG32 (sm : BitVec 4) (dm : BitVec 4) (src : BitVec 32) (dst : BitVec 32) : Laws.EncodeLength.Statement (.dqmG32 sm dm src dst) := rfl
theorem Laws.EncodeLength.unimpThree08 (sm : BitVec 4) (dm : BitVec 4) (src : BitVec 16) (dst : BitVec 16) : Laws.EncodeLength.Statement (.unimpThree08 sm dm src dst) := rfl
theorem Laws.EncodeLength.unimpFive08 (sm : BitVec 4) (dm : BitVec 4) (src : BitVec 32) (dst : BitVec 32) : Laws.EncodeLength.Statement (.unimpFive08 sm dm src dst) := rfl
theorem Laws.EncodeLength.unimpThree09 (sm : BitVec 4) (dm : BitVec 4) (src : BitVec 16) (dst : BitVec 16) : Laws.EncodeLength.Statement (.unimpThree09 sm dm src dst) := rfl
theorem Laws.EncodeLength.unimpFive09 (sm : BitVec 4) (dm : BitVec 4) (src : BitVec 32) (dst : BitVec 32) : Laws.EncodeLength.Statement (.unimpFive09 sm dm src dst) := rfl
theorem Laws.EncodeLength.unimpThree0A (sm : BitVec 4) (dm : BitVec 4) (src : BitVec 16) (dst : BitVec 16) : Laws.EncodeLength.Statement (.unimpThree0A sm dm src dst) := rfl
theorem Laws.EncodeLength.unimpFive0A (sm : BitVec 4) (dm : BitVec 4) (src : BitVec 32) (dst : BitVec 32) : Laws.EncodeLength.Statement (.unimpFive0A sm dm src dst) := rfl
theorem Laws.EncodeLength.unimpThree0B (sm : BitVec 4) (dm : BitVec 4) (src : BitVec 16) (dst : BitVec 16) : Laws.EncodeLength.Statement (.unimpThree0B sm dm src dst) := rfl
theorem Laws.EncodeLength.unimpFive0B (sm : BitVec 4) (dm : BitVec 4) (src : BitVec 32) (dst : BitVec 32) : Laws.EncodeLength.Statement (.unimpFive0B sm dm src dst) := rfl
theorem Laws.EncodeLength.taddG16 (sm : BitVec 4) (dm : BitVec 4) (src : BitVec 16) (dst : BitVec 16) : Laws.EncodeLength.Statement (.taddG16 sm dm src dst) := rfl
theorem Laws.EncodeLength.taddG32 (sm : BitVec 4) (dm : BitVec 4) (src : BitVec 32) (dst : BitVec 32) : Laws.EncodeLength.Statement (.taddG32 sm dm src dst) := rfl
theorem Laws.EncodeLength.tsubG16 (sm : BitVec 4) (dm : BitVec 4) (src : BitVec 16) (dst : BitVec 16) : Laws.EncodeLength.Statement (.tsubG16 sm dm src dst) := rfl
theorem Laws.EncodeLength.tsubG32 (sm : BitVec 4) (dm : BitVec 4) (src : BitVec 32) (dst : BitVec 32) : Laws.EncodeLength.Statement (.tsubG32 sm dm src dst) := rfl
theorem Laws.EncodeLength.unimpThree0E (sm : BitVec 4) (dm : BitVec 4) (src : BitVec 16) (dst : BitVec 16) : Laws.EncodeLength.Statement (.unimpThree0E sm dm src dst) := rfl
theorem Laws.EncodeLength.unimpFive0E (sm : BitVec 4) (dm : BitVec 4) (src : BitVec 32) (dst : BitVec 32) : Laws.EncodeLength.Statement (.unimpFive0E sm dm src dst) := rfl
theorem Laws.EncodeLength.unimpThree0F (sm : BitVec 4) (dm : BitVec 4) (src : BitVec 16) (dst : BitVec 16) : Laws.EncodeLength.Statement (.unimpThree0F sm dm src dst) := rfl
theorem Laws.EncodeLength.unimpFive0F (sm : BitVec 4) (dm : BitVec 4) (src : BitVec 32) (dst : BitVec 32) : Laws.EncodeLength.Statement (.unimpFive0F sm dm src dst) := rfl
theorem Laws.EncodeLength.unimpThree10 (sm : BitVec 4) (dm : BitVec 4) (src : BitVec 16) (dst : BitVec 16) : Laws.EncodeLength.Statement (.unimpThree10 sm dm src dst) := rfl
theorem Laws.EncodeLength.unimpFive10 (sm : BitVec 4) (dm : BitVec 4) (src : BitVec 32) (dst : BitVec 32) : Laws.EncodeLength.Statement (.unimpFive10 sm dm src dst) := rfl
theorem Laws.EncodeLength.unimpThree11 (sm : BitVec 4) (dm : BitVec 4) (src : BitVec 16) (dst : BitVec 16) : Laws.EncodeLength.Statement (.unimpThree11 sm dm src dst) := rfl
theorem Laws.EncodeLength.unimpFive11 (sm : BitVec 4) (dm : BitVec 4) (src : BitVec 32) (dst : BitVec 32) : Laws.EncodeLength.Statement (.unimpFive11 sm dm src dst) := rfl
theorem Laws.EncodeLength.unimpThree12 (sm : BitVec 4) (dm : BitVec 4) (src : BitVec 16) (dst : BitVec 16) : Laws.EncodeLength.Statement (.unimpThree12 sm dm src dst) := rfl
theorem Laws.EncodeLength.unimpFive12 (sm : BitVec 4) (dm : BitVec 4) (src : BitVec 32) (dst : BitVec 32) : Laws.EncodeLength.Statement (.unimpFive12 sm dm src dst) := rfl
theorem Laws.EncodeLength.unimpThree13 (sm : BitVec 4) (dm : BitVec 4) (src : BitVec 16) (dst : BitVec 16) : Laws.EncodeLength.Statement (.unimpThree13 sm dm src dst) := rfl
theorem Laws.EncodeLength.unimpFive13 (sm : BitVec 4) (dm : BitVec 4) (src : BitVec 32) (dst : BitVec 32) : Laws.EncodeLength.Statement (.unimpFive13 sm dm src dst) := rfl
theorem Laws.EncodeLength.unimpThree14 (sm : BitVec 4) (dm : BitVec 4) (src : BitVec 16) (dst : BitVec 16) : Laws.EncodeLength.Statement (.unimpThree14 sm dm src dst) := rfl
theorem Laws.EncodeLength.unimpFive14 (sm : BitVec 4) (dm : BitVec 4) (src : BitVec 32) (dst : BitVec 32) : Laws.EncodeLength.Statement (.unimpFive14 sm dm src dst) := rfl
theorem Laws.EncodeLength.unimpThree15 (sm : BitVec 4) (dm : BitVec 4) (src : BitVec 16) (dst : BitVec 16) : Laws.EncodeLength.Statement (.unimpThree15 sm dm src dst) := rfl
theorem Laws.EncodeLength.unimpFive15 (sm : BitVec 4) (dm : BitVec 4) (src : BitVec 32) (dst : BitVec 32) : Laws.EncodeLength.Statement (.unimpFive15 sm dm src dst) := rfl
theorem Laws.EncodeLength.unimpThree16 (sm : BitVec 4) (dm : BitVec 4) (src : BitVec 16) (dst : BitVec 16) : Laws.EncodeLength.Statement (.unimpThree16 sm dm src dst) := rfl
theorem Laws.EncodeLength.unimpFive16 (sm : BitVec 4) (dm : BitVec 4) (src : BitVec 32) (dst : BitVec 32) : Laws.EncodeLength.Statement (.unimpFive16 sm dm src dst) := rfl
theorem Laws.EncodeLength.unimpThree17 (sm : BitVec 4) (dm : BitVec 4) (src : BitVec 16) (dst : BitVec 16) : Laws.EncodeLength.Statement (.unimpThree17 sm dm src dst) := rfl
theorem Laws.EncodeLength.unimpFive17 (sm : BitVec 4) (dm : BitVec 4) (src : BitVec 32) (dst : BitVec 32) : Laws.EncodeLength.Statement (.unimpFive17 sm dm src dst) := rfl
theorem Laws.EncodeLength.unimpThree18 (sm : BitVec 4) (dm : BitVec 4) (src : BitVec 16) (dst : BitVec 16) : Laws.EncodeLength.Statement (.unimpThree18 sm dm src dst) := rfl
theorem Laws.EncodeLength.unimpFive18 (sm : BitVec 4) (dm : BitVec 4) (src : BitVec 32) (dst : BitVec 32) : Laws.EncodeLength.Statement (.unimpFive18 sm dm src dst) := rfl
theorem Laws.EncodeLength.unimpThree19 (sm : BitVec 4) (dm : BitVec 4) (src : BitVec 16) (dst : BitVec 16) : Laws.EncodeLength.Statement (.unimpThree19 sm dm src dst) := rfl
theorem Laws.EncodeLength.unimpFive19 (sm : BitVec 4) (dm : BitVec 4) (src : BitVec 32) (dst : BitVec 32) : Laws.EncodeLength.Statement (.unimpFive19 sm dm src dst) := rfl
theorem Laws.EncodeLength.unimpThree1A (sm : BitVec 4) (dm : BitVec 4) (src : BitVec 16) (dst : BitVec 16) : Laws.EncodeLength.Statement (.unimpThree1A sm dm src dst) := rfl
theorem Laws.EncodeLength.unimpFive1A (sm : BitVec 4) (dm : BitVec 4) (src : BitVec 32) (dst : BitVec 32) : Laws.EncodeLength.Statement (.unimpFive1A sm dm src dst) := rfl
theorem Laws.EncodeLength.unimpThree1B (sm : BitVec 4) (dm : BitVec 4) (src : BitVec 16) (dst : BitVec 16) : Laws.EncodeLength.Statement (.unimpThree1B sm dm src dst) := rfl
theorem Laws.EncodeLength.unimpFive1B (sm : BitVec 4) (dm : BitVec 4) (src : BitVec 32) (dst : BitVec 32) : Laws.EncodeLength.Statement (.unimpFive1B sm dm src dst) := rfl
theorem Laws.EncodeLength.unimpThree1C (sm : BitVec 4) (dm : BitVec 4) (src : BitVec 16) (dst : BitVec 16) : Laws.EncodeLength.Statement (.unimpThree1C sm dm src dst) := rfl
theorem Laws.EncodeLength.unimpFive1C (sm : BitVec 4) (dm : BitVec 4) (src : BitVec 32) (dst : BitVec 32) : Laws.EncodeLength.Statement (.unimpFive1C sm dm src dst) := rfl
theorem Laws.EncodeLength.cmpgtG16 (sm : BitVec 4) (dm : BitVec 4) (src : BitVec 16) (dst : BitVec 16) : Laws.EncodeLength.Statement (.cmpgtG16 sm dm src dst) := rfl
theorem Laws.EncodeLength.cmpgtG32 (sm : BitVec 4) (dm : BitVec 4) (src : BitVec 32) (dst : BitVec 32) : Laws.EncodeLength.Statement (.cmpgtG32 sm dm src dst) := rfl
theorem Laws.EncodeLength.cmphiG16 (sm : BitVec 4) (dm : BitVec 4) (src : BitVec 16) (dst : BitVec 16) : Laws.EncodeLength.Statement (.cmphiG16 sm dm src dst) := rfl
theorem Laws.EncodeLength.cmphiG32 (sm : BitVec 4) (dm : BitVec 4) (src : BitVec 32) (dst : BitVec 32) : Laws.EncodeLength.Statement (.cmphiG32 sm dm src dst) := rfl
theorem Laws.EncodeLength.cmpeqG16 (sm : BitVec 4) (dm : BitVec 4) (src : BitVec 16) (dst : BitVec 16) : Laws.EncodeLength.Statement (.cmpeqG16 sm dm src dst) := rfl
theorem Laws.EncodeLength.cmpeqG32 (sm : BitVec 4) (dm : BitVec 4) (src : BitVec 32) (dst : BitVec 32) : Laws.EncodeLength.Statement (.cmpeqG32 sm dm src dst) := rfl
theorem Laws.EncodeLength.subG16 (sm : BitVec 4) (dm : BitVec 4) (src : BitVec 16) (dst : BitVec 16) : Laws.EncodeLength.Statement (.subG16 sm dm src dst) := rfl
theorem Laws.EncodeLength.subG32 (sm : BitVec 4) (dm : BitVec 4) (src : BitVec 32) (dst : BitVec 32) : Laws.EncodeLength.Statement (.subG32 sm dm src dst) := rfl
theorem Laws.EncodeLength.orG16 (sm : BitVec 4) (dm : BitVec 4) (src : BitVec 16) (dst : BitVec 16) : Laws.EncodeLength.Statement (.orG16 sm dm src dst) := rfl
theorem Laws.EncodeLength.orG32 (sm : BitVec 4) (dm : BitVec 4) (src : BitVec 32) (dst : BitVec 32) : Laws.EncodeLength.Statement (.orG32 sm dm src dst) := rfl
theorem Laws.EncodeLength.andG16 (sm : BitVec 4) (dm : BitVec 4) (src : BitVec 16) (dst : BitVec 16) : Laws.EncodeLength.Statement (.andG16 sm dm src dst) := rfl
theorem Laws.EncodeLength.andG32 (sm : BitVec 4) (dm : BitVec 4) (src : BitVec 32) (dst : BitVec 32) : Laws.EncodeLength.Statement (.andG32 sm dm src dst) := rfl
theorem Laws.EncodeLength.addG16 (sm : BitVec 4) (dm : BitVec 4) (src : BitVec 16) (dst : BitVec 16) : Laws.EncodeLength.Statement (.addG16 sm dm src dst) := rfl
theorem Laws.EncodeLength.addG32 (sm : BitVec 4) (dm : BitVec 4) (src : BitVec 32) (dst : BitVec 32) : Laws.EncodeLength.Statement (.addG32 sm dm src dst) := rfl
theorem Laws.EncodeLength.xorG16 (sm : BitVec 4) (dm : BitVec 4) (src : BitVec 16) (dst : BitVec 16) : Laws.EncodeLength.Statement (.xorG16 sm dm src dst) := rfl
theorem Laws.EncodeLength.xorG32 (sm : BitVec 4) (dm : BitVec 4) (src : BitVec 32) (dst : BitVec 32) : Laws.EncodeLength.Statement (.xorG32 sm dm src dst) := rfl
theorem Laws.EncodeLength.remG16 (sm : BitVec 4) (dm : BitVec 4) (src : BitVec 16) (dst : BitVec 16) : Laws.EncodeLength.Statement (.remG16 sm dm src dst) := rfl
theorem Laws.EncodeLength.remG32 (sm : BitVec 4) (dm : BitVec 4) (src : BitVec 32) (dst : BitVec 32) : Laws.EncodeLength.Statement (.remG32 sm dm src dst) := rfl
theorem Laws.EncodeLength.mulG16 (sm : BitVec 4) (dm : BitVec 4) (src : BitVec 16) (dst : BitVec 16) : Laws.EncodeLength.Statement (.mulG16 sm dm src dst) := rfl
theorem Laws.EncodeLength.mulG32 (sm : BitVec 4) (dm : BitVec 4) (src : BitVec 32) (dst : BitVec 32) : Laws.EncodeLength.Statement (.mulG32 sm dm src dst) := rfl
theorem Laws.EncodeLength.divG16 (sm : BitVec 4) (dm : BitVec 4) (src : BitVec 16) (dst : BitVec 16) : Laws.EncodeLength.Statement (.divG16 sm dm src dst) := rfl
theorem Laws.EncodeLength.divG32 (sm : BitVec 4) (dm : BitVec 4) (src : BitVec 32) (dst : BitVec 32) : Laws.EncodeLength.Statement (.divG32 sm dm src dst) := rfl
theorem Laws.EncodeLength.unimpThree28 (sm : BitVec 4) (dm : BitVec 4) (src : BitVec 16) (dst : BitVec 16) : Laws.EncodeLength.Statement (.unimpThree28 sm dm src dst) := rfl
theorem Laws.EncodeLength.unimpFive28 (sm : BitVec 4) (dm : BitVec 4) (src : BitVec 32) (dst : BitVec 32) : Laws.EncodeLength.Statement (.unimpFive28 sm dm src dst) := rfl
theorem Laws.EncodeLength.unimpThree29 (sm : BitVec 4) (dm : BitVec 4) (src : BitVec 16) (dst : BitVec 16) : Laws.EncodeLength.Statement (.unimpThree29 sm dm src dst) := rfl
theorem Laws.EncodeLength.unimpFive29 (sm : BitVec 4) (dm : BitVec 4) (src : BitVec 32) (dst : BitVec 32) : Laws.EncodeLength.Statement (.unimpFive29 sm dm src dst) := rfl
theorem Laws.EncodeLength.unimpThree2A (sm : BitVec 4) (dm : BitVec 4) (src : BitVec 16) (dst : BitVec 16) : Laws.EncodeLength.Statement (.unimpThree2A sm dm src dst) := rfl
theorem Laws.EncodeLength.unimpFive2A (sm : BitVec 4) (dm : BitVec 4) (src : BitVec 32) (dst : BitVec 32) : Laws.EncodeLength.Statement (.unimpFive2A sm dm src dst) := rfl
theorem Laws.EncodeLength.unimpThree2B (sm : BitVec 4) (dm : BitVec 4) (src : BitVec 16) (dst : BitVec 16) : Laws.EncodeLength.Statement (.unimpThree2B sm dm src dst) := rfl
theorem Laws.EncodeLength.unimpFive2B (sm : BitVec 4) (dm : BitVec 4) (src : BitVec 32) (dst : BitVec 32) : Laws.EncodeLength.Statement (.unimpFive2B sm dm src dst) := rfl
theorem Laws.EncodeLength.shrG16 (sm : BitVec 4) (dm : BitVec 4) (src : BitVec 16) (dst : BitVec 16) : Laws.EncodeLength.Statement (.shrG16 sm dm src dst) := rfl
theorem Laws.EncodeLength.shrG32 (sm : BitVec 4) (dm : BitVec 4) (src : BitVec 32) (dst : BitVec 32) : Laws.EncodeLength.Statement (.shrG32 sm dm src dst) := rfl
theorem Laws.EncodeLength.ushrG16 (sm : BitVec 4) (dm : BitVec 4) (src : BitVec 16) (dst : BitVec 16) : Laws.EncodeLength.Statement (.ushrG16 sm dm src dst) := rfl
theorem Laws.EncodeLength.ushrG32 (sm : BitVec 4) (dm : BitVec 4) (src : BitVec 32) (dst : BitVec 32) : Laws.EncodeLength.Statement (.ushrG32 sm dm src dst) := rfl
theorem Laws.EncodeLength.shlG16 (sm : BitVec 4) (dm : BitVec 4) (src : BitVec 16) (dst : BitVec 16) : Laws.EncodeLength.Statement (.shlG16 sm dm src dst) := rfl
theorem Laws.EncodeLength.shlG32 (sm : BitVec 4) (dm : BitVec 4) (src : BitVec 32) (dst : BitVec 32) : Laws.EncodeLength.Statement (.shlG32 sm dm src dst) := rfl
theorem Laws.EncodeLength.udivG16 (sm : BitVec 4) (dm : BitVec 4) (src : BitVec 16) (dst : BitVec 16) : Laws.EncodeLength.Statement (.udivG16 sm dm src dst) := rfl
theorem Laws.EncodeLength.udivG32 (sm : BitVec 4) (dm : BitVec 4) (src : BitVec 32) (dst : BitVec 32) : Laws.EncodeLength.Statement (.udivG32 sm dm src dst) := rfl
theorem Laws.EncodeLength.sub3G16 (sm : BitVec 4) (dm : BitVec 4) (src : BitVec 16) (dst : BitVec 16) : Laws.EncodeLength.Statement (.sub3G16 sm dm src dst) := rfl
theorem Laws.EncodeLength.sub3G32 (sm : BitVec 4) (dm : BitVec 4) (src : BitVec 32) (dst : BitVec 32) : Laws.EncodeLength.Statement (.sub3G32 sm dm src dst) := rfl
theorem Laws.EncodeLength.or3G16 (sm : BitVec 4) (dm : BitVec 4) (src : BitVec 16) (dst : BitVec 16) : Laws.EncodeLength.Statement (.or3G16 sm dm src dst) := rfl
theorem Laws.EncodeLength.or3G32 (sm : BitVec 4) (dm : BitVec 4) (src : BitVec 32) (dst : BitVec 32) : Laws.EncodeLength.Statement (.or3G32 sm dm src dst) := rfl
theorem Laws.EncodeLength.and3G16 (sm : BitVec 4) (dm : BitVec 4) (src : BitVec 16) (dst : BitVec 16) : Laws.EncodeLength.Statement (.and3G16 sm dm src dst) := rfl
theorem Laws.EncodeLength.and3G32 (sm : BitVec 4) (dm : BitVec 4) (src : BitVec 32) (dst : BitVec 32) : Laws.EncodeLength.Statement (.and3G32 sm dm src dst) := rfl
theorem Laws.EncodeLength.add3G16 (sm : BitVec 4) (dm : BitVec 4) (src : BitVec 16) (dst : BitVec 16) : Laws.EncodeLength.Statement (.add3G16 sm dm src dst) := rfl
theorem Laws.EncodeLength.add3G32 (sm : BitVec 4) (dm : BitVec 4) (src : BitVec 32) (dst : BitVec 32) : Laws.EncodeLength.Statement (.add3G32 sm dm src dst) := rfl
theorem Laws.EncodeLength.xor3G16 (sm : BitVec 4) (dm : BitVec 4) (src : BitVec 16) (dst : BitVec 16) : Laws.EncodeLength.Statement (.xor3G16 sm dm src dst) := rfl
theorem Laws.EncodeLength.xor3G32 (sm : BitVec 4) (dm : BitVec 4) (src : BitVec 32) (dst : BitVec 32) : Laws.EncodeLength.Statement (.xor3G32 sm dm src dst) := rfl
theorem Laws.EncodeLength.rem3G16 (sm : BitVec 4) (dm : BitVec 4) (src : BitVec 16) (dst : BitVec 16) : Laws.EncodeLength.Statement (.rem3G16 sm dm src dst) := rfl
theorem Laws.EncodeLength.rem3G32 (sm : BitVec 4) (dm : BitVec 4) (src : BitVec 32) (dst : BitVec 32) : Laws.EncodeLength.Statement (.rem3G32 sm dm src dst) := rfl
theorem Laws.EncodeLength.mul3G16 (sm : BitVec 4) (dm : BitVec 4) (src : BitVec 16) (dst : BitVec 16) : Laws.EncodeLength.Statement (.mul3G16 sm dm src dst) := rfl
theorem Laws.EncodeLength.mul3G32 (sm : BitVec 4) (dm : BitVec 4) (src : BitVec 32) (dst : BitVec 32) : Laws.EncodeLength.Statement (.mul3G32 sm dm src dst) := rfl
theorem Laws.EncodeLength.div3G16 (sm : BitVec 4) (dm : BitVec 4) (src : BitVec 16) (dst : BitVec 16) : Laws.EncodeLength.Statement (.div3G16 sm dm src dst) := rfl
theorem Laws.EncodeLength.div3G32 (sm : BitVec 4) (dm : BitVec 4) (src : BitVec 32) (dst : BitVec 32) : Laws.EncodeLength.Statement (.div3G32 sm dm src dst) := rfl
theorem Laws.EncodeLength.unimpThree38 (sm : BitVec 4) (dm : BitVec 4) (src : BitVec 16) (dst : BitVec 16) : Laws.EncodeLength.Statement (.unimpThree38 sm dm src dst) := rfl
theorem Laws.EncodeLength.unimpFive38 (sm : BitVec 4) (dm : BitVec 4) (src : BitVec 32) (dst : BitVec 32) : Laws.EncodeLength.Statement (.unimpFive38 sm dm src dst) := rfl
theorem Laws.EncodeLength.unimpThree39 (sm : BitVec 4) (dm : BitVec 4) (src : BitVec 16) (dst : BitVec 16) : Laws.EncodeLength.Statement (.unimpThree39 sm dm src dst) := rfl
theorem Laws.EncodeLength.unimpFive39 (sm : BitVec 4) (dm : BitVec 4) (src : BitVec 32) (dst : BitVec 32) : Laws.EncodeLength.Statement (.unimpFive39 sm dm src dst) := rfl
theorem Laws.EncodeLength.unimpThree3A (sm : BitVec 4) (dm : BitVec 4) (src : BitVec 16) (dst : BitVec 16) : Laws.EncodeLength.Statement (.unimpThree3A sm dm src dst) := rfl
theorem Laws.EncodeLength.unimpFive3A (sm : BitVec 4) (dm : BitVec 4) (src : BitVec 32) (dst : BitVec 32) : Laws.EncodeLength.Statement (.unimpFive3A sm dm src dst) := rfl
theorem Laws.EncodeLength.unimpThree3B (sm : BitVec 4) (dm : BitVec 4) (src : BitVec 16) (dst : BitVec 16) : Laws.EncodeLength.Statement (.unimpThree3B sm dm src dst) := rfl
theorem Laws.EncodeLength.unimpFive3B (sm : BitVec 4) (dm : BitVec 4) (src : BitVec 32) (dst : BitVec 32) : Laws.EncodeLength.Statement (.unimpFive3B sm dm src dst) := rfl
theorem Laws.EncodeLength.shr3G16 (sm : BitVec 4) (dm : BitVec 4) (src : BitVec 16) (dst : BitVec 16) : Laws.EncodeLength.Statement (.shr3G16 sm dm src dst) := rfl
theorem Laws.EncodeLength.shr3G32 (sm : BitVec 4) (dm : BitVec 4) (src : BitVec 32) (dst : BitVec 32) : Laws.EncodeLength.Statement (.shr3G32 sm dm src dst) := rfl
theorem Laws.EncodeLength.ushr3G16 (sm : BitVec 4) (dm : BitVec 4) (src : BitVec 16) (dst : BitVec 16) : Laws.EncodeLength.Statement (.ushr3G16 sm dm src dst) := rfl
theorem Laws.EncodeLength.ushr3G32 (sm : BitVec 4) (dm : BitVec 4) (src : BitVec 32) (dst : BitVec 32) : Laws.EncodeLength.Statement (.ushr3G32 sm dm src dst) := rfl
theorem Laws.EncodeLength.shl3G16 (sm : BitVec 4) (dm : BitVec 4) (src : BitVec 16) (dst : BitVec 16) : Laws.EncodeLength.Statement (.shl3G16 sm dm src dst) := rfl
theorem Laws.EncodeLength.shl3G32 (sm : BitVec 4) (dm : BitVec 4) (src : BitVec 32) (dst : BitVec 32) : Laws.EncodeLength.Statement (.shl3G32 sm dm src dst) := rfl
theorem Laws.EncodeLength.unimpThree3F (sm : BitVec 4) (dm : BitVec 4) (src : BitVec 16) (dst : BitVec 16) : Laws.EncodeLength.Statement (.unimpThree3F sm dm src dst) := rfl
theorem Laws.EncodeLength.unimpFive3F (sm : BitVec 4) (dm : BitVec 4) (src : BitVec 32) (dst : BitVec 32) : Laws.EncodeLength.Statement (.unimpFive3F sm dm src dst) := rfl

end Sys2Proof
end

