-- ==== Sys2Proof/Laws/RunCalm.lean ====
section
/-! SUPPORT. What the operations of instructions do in the ordinary situation. -/

namespace Sys2Proof.Machine

theorem retire_eq (t : Word) (r : Recent) (s : State) : retire t r s = .ok () (completed t r s) := rfl

theorem finish_eq (t : Word) (r : Recent) (c : Calc) (s : State) :
    finish t r c s = .ok () (completed t r (s.setPsw (c.psw s.psw))) := rfl

theorem BinOp.calc_value (op : BinOp) (a b : Word) : ∃ v, (op.calc a b).value = some v := by
  cases op <;> exact ⟨_, rfl⟩

theorem operandWritable_iff (px : Bool) (o : Operand) (s : State) : operandWritable px o s = true ↔
    isImmediate o = false ∧ (isRegister px o && pswX s.psw) = false := by
  simp only [operandWritable, Bool.and_eq_true, Bool.not_eq_true']

/-- The accumulator's checks in the ordinary situation. -/
theorem prepAcc_calm (s : State) (hc : calm s = true) (ha : aligned (csp s + 4#32) 4 = true)
    (hf : firm (csp s + 4#32) s = true) :
    prepPlace false (accPlace s) s = .ok (.memory (stackAccess s) (targetOf (csp s + 4#32) s) 4) s := by
  obtain ⟨hp, hu⟩ := (calm_iff s).1 hc
  obtain ⟨hv, hb, -⟩ := (plain_iff s).1 hp
  have := prepWrite_calm (stackAccess s) _ 4 s hv hb hu (firm_shaky s _ hf) ha
  simp [prepPlace, accPlace, this]

theorem claimAcc_calm (s : State) (hc : calm s = true) :
    claimDest (.memory (stackAccess s) (targetOf (csp s + 4#32) s) 4) s =
      .ok (.memory (grantOf (csp s + 4#32) s) 4) s := by
  obtain ⟨hv, hb, -⟩ := (plain_iff s).1 ((calm_iff s).1 hc).1
  simp [claimDest, claim_calm _ _ _ hv hb]

theorem storeAcc_calm (s : State) (v : Word) :
    storeDest (.memory (grantOf (csp s + 4#32) s) 4) v s = store 4 (csp s + 4#32) v s := by
  simp [storeDest, commit_calm]

/-- The flags an instruction writes after its store. -/
theorem afterStore_psw (c : Calc) (early px : Bool) (n : Nat) (o : Operand) (s : State) (p : Word)
    (hr : operandReady px n o s = true) : (c.afterStore early (placeOf px n o s)).psw p = pswAfter early px o c p := by
  have h0 : ({ c with mask := 0#32 } : Calc).psw p = p := by
    have e : p &&& BitVec.allOnes 32 = p := BitVec.and_allOnes
    simpa [Calc.psw, mergeBits] using e
  have hf : ((placeOf px n o s).flagsWritten != 0#32) = (operandRegister px o == some .psw) := by
    rcases operandRegister_ready px _ o s hr with ⟨r, hk, hf, ho⟩ | ⟨k, hk, hne, -, ho⟩
    · simp only [placeOf, hk, hf, ho, Option.getD_some]
      cases r <;> decide
    · have : (placeOf px n o s).flagsWritten = 0#32 := by cases k <;> simp_all [placeOf, Place.flagsWritten]
      simp [this, ho]
  unfold Calc.afterStore pswAfter
  rw [hf]
  split
  · exact h0
  · rfl

theorem afterStore_acc (c : Calc) (early : Bool) (s : State) : c.afterStore early (accPlace s) = c := by
  simp [Calc.afterStore, accPlace, Place.flagsWritten]

theorem accPlace_privileged (s : State) : (accPlace s).privileged s = false := rfl

theorem runBinary_calm (op : BinOp) (px : Bool) (f : Form) (s : State) (hc : calm s = true)
    (hs : operandReady px (modeSize px f.src.mode) f.src s = true)
    (hd : operandReady px (modeSize px f.dst.mode) f.dst s = true)
    (hw : operandWritable px f.dst s = true) (h1 : oneRegister px f = true)
    (hz : op.traps = true → operandValue px f.src s ≠ 0#32) :
    ∃ (v : Word) (r : Recent), (op.calc (operandValue px f.src s) (operandValue px f.dst s)).value = some v ∧
      runBinary op false px f s = .ok () (completed (nextPc px f.parcels s) r
        ((storeOperand px f.dst v s s).setPsw
          (pswAfter op.flagsFirst px f.dst (op.calc (operandValue px f.src s) (operandValue px f.dst s))
            (storeOperand px f.dst v s s).psw))) := by
  obtain ⟨v, hv⟩ := op.calc_value (operandValue px f.src s) (operandValue px f.dst s)
  obtain ⟨hi, hr⟩ := (operandWritable_iff _ _ _).1 hw
  have hz' : (op.traps && operandValue px f.src s == 0#32) = false := by
    cases ht : op.traps
    · rfl
    · simpa using hz ht
  have hg : (op.calc (operandValue px f.src s) (operandValue px f.dst s)).value.getD 0#32 = v := by rw [hv]; rfl
  refine ⟨v, ?_⟩
  simp only [runBinary, Bool.false_eq_true, if_false, openForm_calm px .updates f s hc hs hd (fun _ => hi) (fun _ => h1),
    Res.bind_ok, readPlace_calm _ px _ s hc hs, readPlace_calm _ px _ s hc hd, prepPlace_calm false px _ s hc hd hi,
    privileged_calm px _ _ s hd, hr, hz', raiseIf_false, afterStore_psw _ _ px _ _ s _ hd, Res.bind_ok, finish_eq, claimDest_calm _ _ _ _ hc, Res.bind_ok, storeDest_calm, hg]
  exact ⟨_, hv, rfl⟩

theorem runBinaryAcc_calm (op : BinOp) (px : Bool) (f : Form) (s : State) (hc : calm s = true)
    (hs : operandReady px (modeSize px f.src.mode) f.src s = true)
    (hd : operandReady px (modeSize px f.dst.mode) f.dst s = true)
    (h1 : oneRegister px f = true) (ha : aligned (csp s + 4#32) 4 = true) (hf : firm (csp s + 4#32) s = true)
    (hz : op.traps = true → operandValue px f.src s ≠ 0#32) :
    ∃ (v : Word) (r : Recent), (op.calc (operandValue px f.src s) (operandValue px f.dst s)).value = some v ∧
      runBinary op true px f s = .ok () (completed (nextPc px f.parcels s) r
        ((store 4 (csp s + 4#32) v s).setPsw
          ((op.calc (operandValue px f.src s) (operandValue px f.dst s)).psw s.psw))) := by
  obtain ⟨v, hv⟩ := op.calc_value (operandValue px f.src s) (operandValue px f.dst s)
  have hz' : (op.traps && operandValue px f.src s == 0#32) = false := by
    cases ht : op.traps
    · rfl
    · simpa using hz ht
  have hst : (store 4 (csp s + 4#32) v s).psw = s.psw := by
    unfold store; split <;> rfl
  have hg : (op.calc (operandValue px f.src s) (operandValue px f.dst s)).value.getD 0#32 = v := by rw [hv]; rfl
  refine ⟨v, ?_⟩
  simp only [runBinary, if_true, openForm_calm px .reads f s hc hs hd (fun h => by simp [DstUse.writing] at h) (fun _ => h1),
    Res.bind_ok, readPlace_calm _ px _ s hc hs, readPlace_calm _ px _ s hc hd, prepAcc_calm s hc ha hf,
    accPlace_privileged, hz', raiseIf_false, Res.bind_ok, finish_eq, claimAcc_calm _ hc, Res.bind_ok, storeAcc_calm, afterStore_acc, hg, hst]
  exact ⟨_, hv, rfl⟩

theorem runCompare_calm (op : CmpOp) (px : Bool) (f : Form) (s : State) (hc : calm s = true)
    (hs : operandReady px (modeSize px f.src.mode) f.src s = true)
    (hd : operandReady px (modeSize px f.dst.mode) f.dst s = true) (h1 : oneRegister px f = true) :
    ∃ r : Recent, runCompare op px f s = .ok () (completed (nextPc px f.parcels s) r
      (s.setPsw ((op.calc (operandValue px f.src s) (operandValue px f.dst s)).psw s.psw))) := by
  simp only [runCompare, openForm_calm px .reads f s hc hs hd (fun h => by simp [DstUse.writing] at h) (fun _ => h1),
    Res.bind_ok, readPlace_calm _ px _ s hc hs, readPlace_calm _ px _ s hc hd, finish_eq]
  exact ⟨_, rfl⟩

theorem runMov_calm (px : Bool) (f : Form) (s : State) (hc : calm s = true)
    (hs : operandReady px (modeSize px f.src.mode) f.src s = true)
    (hd : operandReady px (modeSize px f.dst.mode) f.dst s = true) (hw : operandWritable px f.dst s = true) :
    ∃ r : Recent, runMov px f s = .ok () (completed (nextPc px f.parcels s) r
      (storeOperand px f.dst (operandValue px f.src s) s s)) := by
  obtain ⟨hi, hr⟩ := (operandWritable_iff _ _ _).1 hw
  simp only [runMov, openForm_calm px .writes f s hc hs hd (fun _ => hi) (fun h => by simp [DstUse.reading] at h),
    Res.bind_ok, readPlace_calm _ px _ s hc hs, prepPlace_calm false px _ s hc hd hi, privileged_calm px _ _ s hd,
    hr, raiseIf_false, Res.bind_ok, retire_eq, claimDest_calm _ _ _ _ hc, Res.bind_ok, storeDest_calm]
  exact ⟨_, rfl⟩

theorem runLock_calm (op : LockOp) (px : Bool) (f : Form) (s u : State) (hc : calm s = true)
    (hs : operandReady px (modeSize px f.src.mode) f.src s = true)
    (hd : operandReady px (modeSize px f.dst.mode) f.dst s = true)
    (hw : operandWritable px f.dst s = true) (h1 : oneRegister px f = true)
    (hu : u = storeOperand px f.dst (op.result (operandValue px f.src s) (operandValue px f.dst s)) s s)
    (hcu : calm u = true) (ha : aligned (csp u + 4#32) 4 = true)
    (hf : firm (csp u + 4#32) u = true) :
    ∃ r, runLock op px f s = .ok () (completed (nextPc px f.parcels s) r
      (store 4 (csp u + 4#32) (operandValue px f.dst s) u)) := by
  obtain ⟨hi, hr⟩ := (operandWritable_iff _ _ _).1 hw
  simp only [runLock, openForm_calm px .updates f s hc hs hd (fun _ => hi) (fun _ => h1),
    Res.bind_ok, readPlace_calm _ px _ s hc hs, readPlace_calm _ px _ s hc hd, prepPlace_calm true px _ s hc hd hi,
    privileged_calm px _ _ s hd, hr, raiseIf_false, Res.bind_ok, claimDest_calm _ _ _ _ hc, Res.bind_ok, storeDest_calm, ← hu, prepAcc_calm u hcu ha hf,
    retire_eq, claimAcc_calm _ hcu, Res.bind_ok, storeAcc_calm]
  exact ⟨_, rfl⟩

theorem runTagged_calm (op : TagOp) (px : Bool) (f : Form) (s : State) (hc : calm s = true)
    (hs : operandReady px (modeSize px f.src.mode) f.src s = true)
    (hd : operandReady px (modeSize px f.dst.mode) f.dst s = true)
    (hw : operandWritable px f.dst s = true) (h1 : oneRegister px f = true) :
    ∃ r : Recent, runTagged op px f s = .ok () (completed (nextPc px f.parcels s) r
      (let c := op.calc (operandValue px f.src s) (operandValue px f.dst s)
       match c.value with
       | none => s.setPsw (c.psw s.psw)
       | some v =>
         let u := storeOperand px f.dst v s s
         u.setPsw (pswAfter true px f.dst c u.psw))) := by
  obtain ⟨hi, hr⟩ := (operandWritable_iff _ _ _).1 hw
  simp only [runTagged, openForm_calm px .updates f s hc hs hd (fun _ => hi) (fun _ => h1),
    Res.bind_ok, readPlace_calm _ px _ s hc hs, readPlace_calm _ px _ s hc hd]
  cases hv : (op.calc (operandValue px f.src s) (operandValue px f.dst s)).value with
  | none =>
    simp only [privileged_calm px _ _ s hd, hr, raiseIf_false, Res.bind_ok, Res.bind_ok, finish_eq]
    exact ⟨_, rfl⟩
  | some v =>
    simp only [prepPlace_calm false px _ s hc hd hi, privileged_calm px _ _ s hd, hr, raiseIf_false, Res.bind_ok, finish_eq,
      claimDest_calm _ _ _ _ hc, storeDest_calm, afterStore_psw _ _ px _ _ s _ hd]
    exact ⟨_, rfl⟩

end Sys2Proof.Machine
end

