-- ==== Sys2Proof/Laws/Sequences.lean ====
section
/-! SUPPORT. What a store leaves, and what the kernel's sequences, control-flow targets and ENTER's and CATCH's operands
come to in the ordinary situation (`plain`, `usable`, `calm`). -/

namespace Sys2Proof.Machine

/-- A store changes memory or the stack cache, and no register. -/
theorem store_same (n : Nat) (va v : Word) (s : State) :
    (store n va v s).psw = s.psw ∧ (store n va v s).sp = s.sp ∧ (store n va v s).msp = s.msp ∧
    (store n va v s).isp = s.isp ∧ (store n va v s).configEff = s.configEff ∧ (store n va v s).vpEff = s.vpEff ∧
    ramBus (store n va v s) = ramBus s ∧ (store n va v s).recent = s.recent ∧ (store n va v s).pc = s.pc ∧
    (store n va v s).vb = s.vb ∧ (store n va v s).shad = s.shad := by
  unfold store; split <;> exact ⟨rfl, rfl, rfl, rfl, rfl, rfl, rfl, rfl, rfl, rfl, rfl⟩

theorem hits_store (a : Word) (n : Nat) (va v : Word) (s : State) : hits a (store n va v s) = hits a s := by
  obtain ⟨_, h2, h3, _, h5, _⟩ := store_same n va v s
  simp [hits, h2, h3, h5]

theorem plain_store (n : Nat) (va v : Word) (s : State) : plain (store n va v s) = plain s := by
  obtain ⟨_, _, _, _, _, h6, h7, h8, _⟩ := store_same n va v s
  simp [plain, h6, h7, h8]

theorem usable_store (n : Nat) (va v : Word) (s : State) : usable (store n va v s) = usable s := by
  obtain ⟨_, h2, h3, _, h5, _⟩ := store_same n va v s
  simp [usable, windowOk, h2, h3, h5]

theorem calm_store (n : Nat) (va v : Word) (s : State) : calm (store n va v s) = calm s := by
  have h1 := plain_store n va v s
  have h2 := usable_store n va v s
  simp [calm, h1, h2]

theorem firm_store (a : Word) (n : Nat) (va v : Word) (s : State) : firm a (store n va v s) = firm a s := by
  simp [firm, hits_store, (store_same n va v s).1]

theorem csp_store (n : Nat) (va v : Word) (s : State) : csp (store n va v s) = csp s := by
  obtain ⟨h1, h2, _, h4, _⟩ := store_same n va v s
  simp [csp, h1, h2, h4]

/-- A word a sequence writes outside the stack cache. -/
theorem sequenceWrite_plain (va v : Word) (s : State) (hp : plain s = true) (hu : usable s = true)
    (hh : hits va s = false) (ha : aligned va 4 = true) : sequenceWrite va v s = .ok () (store 4 va v s) := by
  obtain ⟨hv, hb, -⟩ := (plain_iff s).1 hp
  simp [sequenceWrite, memWrite_calm _ va 4 v s hv hb hu (fun _ => hh) ha, orReset]

/-- A word a sequence reads outside the stack cache. -/
theorem sequenceRead_plain (va : Word) (s : State) (hp : plain s = true) (hu : usable s = true)
    (hh : hits va s = false) (ha : aligned va 4 = true) : sequenceRead va s = .ok (load 4 va s) s := by
  obtain ⟨hv, hb, -⟩ := (plain_iff s).1 hp
  simp [sequenceRead, memRead_calm _ va 4 s hv hb hu (fun _ => hh) ha, orReset]

theorem frameClear_iff (base vector : Word) (s : State) : frameClear base vector s = true ↔
    usable s = true ∧ hits (base - 4#32) s = false ∧ hits (base - 8#32) s = false ∧ hits (base - 12#32) s = false ∧
      hits vector s = false := by
  simp [frameClear, and_assoc]

theorem aligned_sub (a k : Word) (hk : k.toNat % 4 = 0) (h : aligned a 4 = true) : aligned (a - k) 4 = true := by
  simp [aligned, BitVec.toNat_sub] at *; omega

theorem aligned_add (a k : Word) (hk : k.toNat % 4 = 0) (h : aligned a 4 = true) : aligned (a + k) 4 = true := by
  simp [aligned, BitVec.toNat_add] at *; omega

/-- The frame stores of every event. -/
theorem pushFrame_plain (pc : Word) (s : State) (hp : plain s = true) (hu : usable s = true)
    (h8 : hits (s.isp - 8#32) s = false) (h4 : hits (s.isp - 4#32) s = false) (ha : aligned s.isp 4 = true) :
    pushFrame pc s = .ok () (store 4 (s.isp - 4#32) s.psw (store 4 (s.isp - 8#32) pc s)) := by
  unfold pushFrame
  rw [sequenceWrite_plain _ _ s hp hu h8 (aligned_sub _ _ rfl ha)]
  have hi : (store 4 (s.isp - 8#32) pc s).isp = s.isp := (store_same ..).2.2.2.1
  have hq : (store 4 (s.isp - 8#32) pc s).psw = s.psw := (store_same ..).1
  simp only [Res.bind_ok, hi, hq]
  rw [sequenceWrite_plain _ _ _ (by rw [plain_store]; exact hp) (by rw [usable_store]; exact hu)
    (by rw [hits_store]; exact h4) (aligned_sub _ _ rfl ha)]

/-- The end of every sequence that enters the kernel. -/
theorem enterKernel_plain (vector : Word) (s : State) (hp : plain s = true) (hu : usable s = true)
    (hh : hits vector s = false) (ha : aligned vector 4 = true) :
    enterKernel vector s = .ok () ((((s.setIsp (s.isp - 16#32)).setShad (s.isp - 16#32)).setPc
      (textAlign (load 4 vector s))).setPsw (eventPsw s.psw)) := by
  unfold enterKernel
  dsimp only
  rw [sequenceRead_plain vector ((s.setIsp (s.isp - 16#32)).setShad (s.isp - 16#32)) hp hu hh ha]
  rfl

theorem restoreCsp_same (s : State) : (restoreCsp s).psw = s.psw ∧ (restoreCsp s).pc = s.pc ∧
    (restoreCsp s).vb = s.vb ∧ plain (restoreCsp s) = plain s := by
  unfold restoreCsp; split <;> exact ⟨rfl, rfl, rfl, rfl⟩

theorem recordFault_same (e : Trap) (s : State) : (recordFault e s).psw = s.psw ∧ (recordFault e s).pc = s.pc ∧
    (recordFault e s).vb = s.vb ∧ plain (recordFault e s) = plain s ∧ (recordFault e s).shad = s.shad ∧
    (recordFault e s).isp = s.isp ∧ (recordFault e s).sp = s.sp := by
  cases e <;> exact ⟨rfl, rfl, rfl, rfl, rfl, rfl, rfl⟩

theorem wordMode_cases (m : BitVec 4) : wordMode m = true → m = 0xC#4 ∨ m = 0xD#4 ∨ m = 0xE#4 ∨ m = 0xF#4 := by
  revert m; decide

/-- The target of a control-flow operand. -/
theorem flowTarget_calm (m : BitVec 4) (o : Word) (s : State) (hc : calm s = true) (hm : wordMode m = true)
    (ha : flowSound m o s = true) : flowTarget m o s = .ok (flowAddress m o s) s := by
  obtain ⟨hp, hu⟩ := (calm_iff s).1 hc
  obtain ⟨hv, hb, -⟩ := (plain_iff s).1 hp
  obtain ⟨ha, hf⟩ : flowAligned m o s = true ∧ (m ≠ 0xD#4 ∨ firm (csp s + o) s = true) := by
    simpa [flowSound] using ha
  rcases wordMode_cases m hm with rfl | rfl | rfl | rfl
  · exact memRead_calm (plainAccess s) o 4 s hv hb hu (plain_shaky s _) ha
  · exact memRead_calm (stackAccess s) _ 4 s hv hb hu (firm_shaky s _ (hf.resolve_left (· rfl))) ha
  · rfl
  · rfl

/-- A store at the CSP. -/
theorem memWrite_csp (s : State) (v : Word) (hc : calm s = true) (ha : aligned (csp s) 4 = true)
    (hf : firm (csp s) s = true) :
    memWrite (stackAccess s) (csp s) 4 v s = .ok () (store 4 (csp s) v s) := by
  obtain ⟨hp, hu⟩ := (calm_iff s).1 hc
  obtain ⟨hv, hb, -⟩ := (plain_iff s).1 hp
  exact memWrite_calm (stackAccess s) _ 4 v s hv hb hu (firm_shaky s _ hf) ha

/-- The operand of ENTER and CATCH. -/
theorem frameTarget_calm (m : BitVec 4) (o : Word) (s : State) (hc : calm s = true) (ha : frameReady m o s = true) :
    frameTarget m o s = .ok (frameAddress m o s) s := by
  obtain ⟨hp, hu⟩ := (calm_iff s).1 hc
  obtain ⟨hv, hb, -⟩ := (plain_iff s).1 hp
  have : m = 0xC#4 ∨ m = 0xD#4 ∨ m = 0xE#4 ∨ m = 0xF#4 := by
    have key : ∀ m : BitVec 4, ¬ (m = 0xC#4 ∨ m = 0xD#4 ∨ m = 0xE#4 ∨ m = 0xF#4) → frameReady m o s = false := by
      intro m hm
      unfold frameReady
      split <;> first | rfl | (exfalso; apply hm; revert m; decide)
    by_contra h; rw [key m h] at ha; cases ha
  rcases this with rfl | rfl | rfl | rfl
  · exact memRead_calm (plainAccess s) o 4 s hv hb hu (plain_shaky s _) ha
  · rfl
  · obtain ⟨ha, hf⟩ : aligned (csp s + o) 4 = true ∧ firm (csp s + o) s = true := by simpa [frameReady] using ha
    exact memRead_calm (stackAccess s) _ 4 s hv hb hu (firm_shaky s _ hf) ha
  · rfl

/-- What an internally caused reset leaves. -/
theorem resetSequence_restarted (s u : State) (hp : u.psw = s.psw) (h1 : u.vb = s.vb) (h2 : u.stb = s.stb)
    (h3 : u.msp = s.msp) : Restarted s (resetSequence false u) := by
  constructor <;> simp [resetSequence, resetCommon, flushTextCaches, flushTranslations, hp, h1, h2, h3]

theorem resetSequence_mem (u : State) : (resetSequence false u).mem = u.mem := by
  simp [resetSequence, resetCommon, flushTextCaches, flushTranslations]

/-- A text read with RAM everywhere holds each parcel of its double word. -/
theorem readLine_ram (pa : Word) (s : State) (h : ramBus s = true) :
    ∃ l, readLine pa s = .ok l s ∧ ∀ a, textAlign a = a → pairAlign a = pairAlign pa →
      l.parcel a = some (Memory.parcel s.mem a) := by
  refine ⟨⟨pairAlign pa, [Memory.parcel s.mem (pairAlign pa), Memory.parcel s.mem (pairAlign pa + 2#32),
    Memory.parcel s.mem (pairAlign pa + 4#32), Memory.parcel s.mem (pairAlign pa + 6#32)]⟩, ?_, fun a ha hl => ?_⟩
  · simp only [readLine, physRead_ram _ _ _ _ h, Res.bind_ok]
    rfl
  have h1 := textAlign_toNat a
  rw [ha] at h1
  have h2 := pairAlign_toNat a
  have key : ∀ k, a.toNat % 8 / 2 = k → a = pairAlign pa + BitVec.ofNat 32 (2 * k) := by
    intro k hk
    apply BitVec.eq_of_toNat_eq
    rw [← hl, BitVec.toNat_add, BitVec.toNat_ofNat, h2]
    have := a.isLt
    omega
  rw [TextLine.parcel, if_pos hl.symm]
  have : a.toNat % 8 / 2 < 4 := by omega
  generalize hk : a.toNat % 8 / 2 = k at this
  have := key k hk
  rcases k with _ | _ | _ | _ | k
  · simp [this]
  · simp [this]
  · simp [this]
  · simp [this]
  · omega

/-- At a quiet boundary the inputs are idle. -/
theorem nextPins_quiet (s : State) (h : QuietBoundary s) : nextPins s = (idlePins, s) := by
  have e : s.setTurns [] = s := by have := h.turns; cases s; simp_all [State.setTurns]
  simp [nextPins, h.pins, e]

/-- A quiet boundary changes nothing. -/
theorem boundary_quiet (s : State) (h : QuietBoundary s) : boundary idlePins s = .ok () s := by
  have e2 : s.setNmiArmed true = s := by have := h.nmiArmed; cases s; simp_all [State.setNmiArmed]
  have e3 : s.setConfigEff s.config = s := by have := h.config; cases s; simp_all [State.setConfigEff]
  have e4 : ∀ b, prefetch b s = .ok () s := by simp [prefetch, h.prefetch]
  have e6 : applyWrites s = s := by simp [applyWrites, drawMix_same, h.config, e3, h.addressing]
  simp [boundary, idlePins, e4, Res.onTrap, otherMasters, armNmi, e2, e6]

/-- With physical addressing the advance checks of ENTER and CATCH pass. -/
theorem checkStore_physical (a : Word) (s : State) (hv : s.vpEff = false) (hb : ramBus s = true) :
    checkStore a s = .ok () s := by
  unfold checkStore; rw [dataAddress_physical _ _ _ _ _ hv hb]

/-- A free sublist moves the free counter only. -/
theorem drawSublist_state {α : Type} (xs : List α) (s : State) : ∃ k, (drawSublist xs s).2 = s.setFree k := by
  induction xs generalizing s with
  | nil => exact ⟨s.free, rfl⟩
  | cons x xs ih =>
    obtain ⟨n, hn⟩ := ih (drawBit s).2
    exact ⟨n, by simp only [drawSublist]; exact hn⟩

/-- Restoring lost translations changes the data translations and the free counter only (70_reset_and_hazards.md R447).
-/
theorem restoreLost_state (s : State) :
    (restoreLost s).2.2 =
      ((s.setDataTlb (restoreLost s).2.2.dataTlb).setDataNpsr (restoreLost s).2.2.dataNpsr).setFree
        (restoreLost s).2.2.free := by
  obtain ⟨k, hk⟩ := drawSublist_state (lostEntries s.recent s.dataTlb) s
  unfold restoreLost
  generalize drawSublist (lostEntries s.recent s.dataTlb) s = d at hk
  obtain ⟨es, t⟩ := d
  obtain rfl : t = s.setFree k := hk
  simp only
  split
  · split <;> rfl
  · rfl

/-- Dropping them again changes the data translations only. -/
theorem dropLost_state (es : List TlbEntry) (n : Option Npsr) (s : State) :
    dropLost es n s = (s.setDataTlb (dropLost es n s).dataTlb).setDataNpsr (dropLost es n s).dataNpsr := by
  unfold dropLost
  dsimp only
  split <;> rfl

/-- With no hazard in flight there is nothing to restore. -/
theorem restoreLost_harmless (s : State) (h : s.recent.all Recent.harmless = true) : restoreLost s = ([], none, s) := by
  have h1 : s.recent.flatMap (fun r => r.lostTlb) = [] :=
    List.flatMap_eq_nil_iff.2 fun r hr => ((harmless_iff r).1 (List.all_eq_true.1 h r hr)).2.2.2.1
  have h2 : s.recent.filterMap (fun r => r.lostNpsr) = [] :=
    List.filterMap_eq_nil_iff.2 fun r hr => ((harmless_iff r).1 (List.all_eq_true.1 h r hr)).2.2.2.2
  simp only [restoreLost, lostEntries, h1, List.filter_nil, drawSublist, List.nil_append]
  have h3 : (s.setDataTlb s.dataTlb).recent = s.recent := rfl
  rw [h3, h2]
  cases (s.setDataTlb s.dataTlb).dataNpsr <;> rfl

theorem dropLost_nil (s : State) : dropLost [] none s = s := by simp [dropLost]; rfl

end Sys2Proof.Machine
end

