-- ==== Sys2Proof/Tests/Slice0.lean ====
section
/-! SUPPORT. Tests: the WellFormed smoke, every constructor's word, one step of each instruction against the examples of
spec/95_test_vectors.md, and for every obligation with hypotheses a state and operands that meet them together. -/

namespace Sys2Proof.Tests

open Sys2Proof.Machine

/-! Ill-formed terms: what may stand behind a CPU prefix (30_encoding.md R128). -/

theorem test_wellFormed_wide_inner : (Instr.cpuWide (.movG16 0x7#4 0xD#4 5#16 8#16)).wellFormed = true := by decide
theorem test_illFormed_wide_one_parcel : (Instr.cpuWide .nop).wellFormed = false := by decide
theorem test_illFormed_wide_prefix : (Instr.cpuWide (.cpuWide (.movG16 0#4 0#4 0#16 0#16))).wellFormed = false := by
  decide
theorem test_wellFormed_short_inner : (Instr.cpuShort 0x2C02#16).wellFormed = true := by decide
theorem test_illFormed_short_three_parcel : (Instr.cpuShort 0x867D#16).wellFormed = false := by decide

/-! Decoding: the words are the rows' fixed bits with the fields put in by hand. -/

/-- Whether each list of parcels decodes to its instruction, with nothing left over. -/
def decodesAll (xs : List (List Parcel × Instr)) : Bool :=
  xs.all fun x => match decodeParcels x.1 with
    | .ok (i, rest) => i == x.2 && rest.isEmpty
    | .error _ => false

/-- Words of the encodings of 30_encoding.md R123, R150, R151, written out field by field. -/
theorem test_decode_one_parcel_1 : decodesAll [
    ([0x034B#16], .kcallImm10 0x34B#10),
    ([0x049B#16], .callPc10 0x9B#10),
    ([0x0827#16], .enterStk8 0x27#8),
    ([0x0993#16], .catchStk8 0x93#8),
    ([0x0A09#16], .returnStk8 0x9#8),
    ([0x0BDD#16], .popnStk8 0xDD#8),
    ([0x0E3B#16], .jmpPc10 0x23B#10),
    ([0x1007#16], .jmpfnPc10 0x7#10),
    ([0x1427#16], .jmpfyPc10 0x27#10),
    ([0x19BD#16], .jmptnPc10 0x1BD#10),
    ([0x1C47#16], .jmptyPc10 0x47#10),
    ([0x225D#16], .unimpOne08 0x25D#10),
    ([0x25B3#16], .unimpOne09 0x1B3#10),
    ([0x2B73#16], .movWS 0x1B#5 0x13#5),
    ([0x3057#16], .unimpOne0C 0x57#10),
    ([0x343F#16], .add3WS 0x1#5 0x1F#5),
    ([0x38E1#16], .and3CS 0x7#5 0x1#5),
    ([0x3E3B#16], .andSS 0x11#5 0x1B#5),
    ([0x40A9#16], .cmpeqCS 0x5#5 0x9#5),
    ([0x45A5#16], .cmpgtSS 0xD#5 0x5#5),
    ([0x4A23#16], .cmpgtCS 0x11#5 0x3#5),
    ([0x4E69#16], .cmpeqSS 0x13#5 0x9#5),
    ([0x523B#16], .addCS 0x11#5 0x1B#5),
    ([0x56A5#16], .add3CS 0x15#5 0x5#5)] = true := by decide

/-- Words of the encodings of 30_encoding.md R123, R150, R151, written out field by field. -/
theorem test_decode_one_parcel_2 : decodesAll [
    ([0x5873#16], .addSS 0x3#5 0x13#5),
    ([0x5E75#16], .add3SS 0x13#5 0x15#5),
    ([0x60EB#16], .movSS 0x7#5 0xB#5),
    ([0x6471#16], .movIS 0x3#5 0x11#5),
    ([0x6AE3#16], .movSI 0x17#5 0x3#5),
    ([0x6E61#16], .movII 0x13#5 0x1#5),
    ([0x7267#16], .movCS 0x13#5 0x7#5),
    ([0x75F5#16], .movaSS 0xF#5 0x15#5),
    ([0x7A2D#16], .shl3CS 0x11#5 0xD#5),
    ([0x7F2B#16], .shr3CS 0x19#5 0xB#5)] = true := by decide

/-- Words of the encodings of 30_encoding.md R152, written out field by field. -/
theorem test_decode_niladic : decodesAll [
    ([0x2C01#16], .kret),
    ([0x2C02#16], .nop),
    ([0x2C03#16], .flushi),
    ([0x2C04#16], .flushp),
    ([0x2C05#16], .cret),
    ([0x2C06#16], .flushd),
    ([0x2C08#16], .testv),
    ([0x2C09#16], .testc),
    ([0x2C0A#16], .clre),
    ([0x2C07#16], .unimpNil007),
    ([0x2C0B#16], .unimpNil00B),
    ([0x2C0D#16], .unimpNil00C 0x1#2),
    ([0x2C1F#16], .unimpNil010 0xF#4),
    ([0x2C27#16], .unimpNil020 0x7#5),
    ([0x2C69#16], .unimpNil040 0x29#6),
    ([0x2CD1#16], .unimpNil080 0x51#7),
    ([0x2D95#16], .unimpNil100 0x95#8),
    ([0x2F1F#16], .trappedNiladic 0x11F#9)] = true := by decide

/-- Words of the encodings of 30_encoding.md R125, R154, written out field by field. -/
theorem test_decode_monadic : decodesAll [
    ([0x8070#16, 0x95E7#16, 0x61D1#16], .kcallW32 0x7#4 0x95E761D1#32),
    ([0x8071#16, 0x5C90#16, 0xA959#16], .callF32 0x7#4 0x5C90A959#32),
    ([0x8032#16, 0x4B5C#16, 0x7427#16], .returnS32 0x3#4 0x4B5C7427#32),
    ([0x80B3#16, 0x47A2#16, 0xEA21#16], .jmpF32 0xB#4 0x47A2EA21#32),
    ([0x8014#16, 0x130D#16, 0x6EAF#16], .jmpfnA32 0x1#4 0x130D6EAF#32),
    ([0x8095#16, 0xFEBF#16, 0xF207#16], .jmpfyA32 0x9#4 0xFEBFF207#32),
    ([0x8056#16, 0x3ABC#16, 0xED21#16], .jmptnA32 0x5#4 0x3ABCED21#32),
    ([0x8057#16, 0x9BE4#16, 0xBCFD#16], .jmptyA32 0x5#4 0x9BE4BCFD#32),
    ([0x8018#16, 0x9E39#16, 0x8F11#16], .catchW32 0x1#4 0x9E398F11#32),
    ([0x8079#16, 0xAA3A#16, 0xF4D5#16], .enterW32 0x7#4 0xAA3AF4D5#32),
    ([0x805A#16, 0xA6E8#16, 0x7555#16], .ldraaF32 0x5#4 0xA6E87555#32),
    ([0x807B#16, 0x6BF4#16, 0x6C69#16], .flushpteW32 0x7#4 0x6BF46C69#32),
    ([0x80FC#16, 0x2B10#16, 0x31D1#16], .flushpbeW32 0xF#4 0x2B1031D1#32),
    ([0x80DD#16, 0x8EDE#16, 0x0D7B#16], .flushdceW32 0xD#4 0x8EDE0D7B#32),
    ([0x80DE#16, 0xE01F#16, 0x5057#16], .unimpMonE 0xD#4 0xE01F5057#32),
    ([0x805F#16, 0xD712#16, 0x4243#16], .popnS32 0x5#4 0xD7124243#32)] = true := by decide

/-- Words of the encodings of 30_encoding.md R127, R155, written out field by field. -/
theorem test_decode_five_parcel_1 : decodesAll [
    ([0xC059#16, 0xFF26#16, 0x144B#16, 0x4C01#16, 0x1CDD#16], .unimpFive00 0x5#4 0x9#4 0xFF26144B#32 0x4C011CDD#32),
    ([0xC1BB#16, 0x10A3#16, 0xD6B3#16, 0xBB2D#16, 0x420F#16], .oriG32 0xB#4 0xB#4 0x10A3D6B3#32 0xBB2D420F#32),
    ([0xC275#16, 0x3774#16, 0xEB53#16, 0xE315#16, 0x1289#16], .andiG32 0x7#4 0x5#4 0x3774EB53#32 0xE3151289#32),
    ([0xC391#16, 0x7E62#16, 0xAA0B#16, 0xB7DC#16, 0x76FB#16], .addiG32 0x9#4 0x1#4 0x7E62AA0B#32 0xB7DC76FB#32),
    ([0xC4FD#16, 0x7F1B#16, 0x103D#16, 0x2A96#16, 0xFB1B#16], .movaG32 0xF#4 0xD#4 0x7F1B103D#32 0x2A96FB1B#32),
    ([0xC57D#16, 0x0CDB#16, 0x305F#16, 0x34D6#16, 0x6A3B#16], .uremG32 0x7#4 0xD#4 0xCDB305F#32 0x34D66A3B#32),
    ([0xC633#16, 0x153E#16, 0x7C2B#16, 0x26BB#16, 0x7DBD#16], .movG32 0x3#4 0x3#4 0x153E7C2B#32 0x26BB7DBD#32),
    ([0xC735#16, 0x482C#16, 0x9CBD#16, 0x254B#16, 0x0C4F#16], .dqmG32 0x3#4 0x5#4 0x482C9CBD#32 0x254B0C4F#32),
    ([0xC83B#16, 0xDBF4#16, 0xA8B3#16, 0xF341#16, 0xE07B#16], .unimpFive08 0x3#4 0xB#4 0xDBF4A8B3#32 0xF341E07B#32),
    ([0xC9DD#16, 0xF3AE#16, 0xD0B7#16, 0xAE3A#16, 0x2B7F#16], .unimpFive09 0xD#4 0xD#4 0xF3AED0B7#32 0xAE3A2B7F#32),
    ([0xCA7B#16, 0x6683#16, 0x6887#16, 0x30CB#16, 0xC97D#16], .unimpFive0A 0x7#4 0xB#4 0x66836887#32 0x30CBC97D#32),
    ([0xCB91#16, 0x1A35#16, 0x8CA1#16, 0x1118#16, 0xBB17#16], .unimpFive0B 0x9#4 0x1#4 0x1A358CA1#32 0x1118BB17#32),
    ([0xCC1D#16, 0xB53C#16, 0x631D#16, 0x6050#16, 0x914B#16], .taddG32 0x1#4 0xD#4 0xB53C631D#32 0x6050914B#32),
    ([0xCD71#16, 0x9D87#16, 0xCEC3#16, 0xFCF2#16, 0x0725#16], .tsubG32 0x7#4 0x1#4 0x9D87CEC3#32 0xFCF20725#32),
    ([0xCE31#16, 0x3FEA#16, 0xA155#16, 0x3D87#16, 0xA865#16], .unimpFive0E 0x3#4 0x1#4 0x3FEAA155#32 0x3D87A865#32),
    ([0xCF3F#16, 0xF3B7#16, 0xA50D#16, 0x5C9B#16, 0xCF35#16], .unimpFive0F 0x3#4 0xF#4 0xF3B7A50D#32 0x5C9BCF35#32),
    ([0xD05F#16, 0xA496#16, 0x36A3#16, 0x974C#16, 0x77A3#16], .unimpFive10 0x5#4 0xF#4 0xA49636A3#32 0x974C77A3#32),
    ([0xD15D#16, 0xB908#16, 0xF227#16, 0x8AA4#16, 0x248D#16], .unimpFive11 0x5#4 0xD#4 0xB908F227#32 0x8AA4248D#32),
    ([0xD2DF#16, 0xC221#16, 0x6B03#16, 0xB1F5#16, 0x1707#16], .unimpFive12 0xD#4 0xF#4 0xC2216B03#32 0xB1F51707#32),
    ([0xD339#16, 0x7E26#16, 0xF36B#16, 0x3B23#16, 0x13F5#16], .unimpFive13 0x3#4 0x9#4 0x7E26F36B#32 0x3B2313F5#32),
    ([0xD43B#16, 0x9AEA#16, 0x6429#16, 0x5822#16, 0xCB77#16], .unimpFive14 0x3#4 0xB#4 0x9AEA6429#32 0x5822CB77#32),
    ([0xD5F5#16, 0x149E#16, 0x259B#16, 0x1A26#16, 0xF889#16], .unimpFive15 0xF#4 0x5#4 0x149E259B#32 0x1A26F889#32),
    ([0xD6FF#16, 0x9C3A#16, 0x23CD#16, 0x007D#16, 0x1035#16], .unimpFive16 0xF#4 0xF#4 0x9C3A23CD#32 0x7D1035#32),
    ([0xD7DB#16, 0x9EB2#16, 0x0109#16, 0xE377#16, 0x1407#16], .unimpFive17 0xD#4 0xB#4 0x9EB20109#32 0xE3771407#32)] = true := by decide

/-- Words of the encodings of 30_encoding.md R127, R155, written out field by field. -/
theorem test_decode_five_parcel_2 : decodesAll [
    ([0xD87D#16, 0x22C6#16, 0x8E45#16, 0x9635#16, 0x3D03#16], .unimpFive18 0x7#4 0xD#4 0x22C68E45#32 0x96353D03#32),
    ([0xD9BF#16, 0x95BD#16, 0x448F#16, 0x28AA#16, 0xCA51#16], .unimpFive19 0xB#4 0xF#4 0x95BD448F#32 0x28AACA51#32),
    ([0xDA7D#16, 0x27E6#16, 0x529B#16, 0x9C90#16, 0x11EF#16], .unimpFive1A 0x7#4 0xD#4 0x27E6529B#32 0x9C9011EF#32),
    ([0xDB39#16, 0x0C5C#16, 0x715F#16, 0x057A#16, 0x40B3#16], .unimpFive1B 0x3#4 0x9#4 0xC5C715F#32 0x57A40B3#32),
    ([0xDCBF#16, 0x23A5#16, 0xEF89#16, 0xFC8E#16, 0x80B3#16], .unimpFive1C 0xB#4 0xF#4 0x23A5EF89#32 0xFC8E80B3#32),
    ([0xDD35#16, 0x004C#16, 0x25D7#16, 0xC380#16, 0x84A1#16], .cmpgtG32 0x3#4 0x5#4 0x4C25D7#32 0xC38084A1#32),
    ([0xDE1F#16, 0x3D6B#16, 0x881B#16, 0x65CF#16, 0xEDFB#16], .cmphiG32 0x1#4 0xF#4 0x3D6B881B#32 0x65CFEDFB#32),
    ([0xDFDF#16, 0xE0CF#16, 0xAB4D#16, 0xA179#16, 0xB37D#16], .cmpeqG32 0xD#4 0xF#4 0xE0CFAB4D#32 0xA179B37D#32),
    ([0xE0D3#16, 0x1BCA#16, 0x3CB7#16, 0xC6AA#16, 0x7D55#16], .subG32 0xD#4 0x3#4 0x1BCA3CB7#32 0xC6AA7D55#32),
    ([0xE119#16, 0x0FCF#16, 0x31CB#16, 0xAEAD#16, 0x44B1#16], .orG32 0x1#4 0x9#4 0xFCF31CB#32 0xAEAD44B1#32),
    ([0xE2F9#16, 0x0E8B#16, 0xEC95#16, 0x30F9#16, 0x7059#16], .andG32 0xF#4 0x9#4 0xE8BEC95#32 0x30F97059#32),
    ([0xE31D#16, 0xE4DD#16, 0xF9B9#16, 0x1038#16, 0xF0B5#16], .addG32 0x1#4 0xD#4 0xE4DDF9B9#32 0x1038F0B5#32),
    ([0xE43B#16, 0x46F5#16, 0xA1B5#16, 0x8216#16, 0x858F#16], .xorG32 0x3#4 0xB#4 0x46F5A1B5#32 0x8216858F#32),
    ([0xE59F#16, 0xE040#16, 0x015D#16, 0x6D84#16, 0xE91F#16], .remG32 0x9#4 0xF#4 0xE040015D#32 0x6D84E91F#32),
    ([0xE673#16, 0x6AA8#16, 0xB9E1#16, 0x6471#16, 0xFDE5#16], .mulG32 0x7#4 0x3#4 0x6AA8B9E1#32 0x6471FDE5#32),
    ([0xE73B#16, 0xCD82#16, 0xFEAD#16, 0x9F52#16, 0x5265#16], .divG32 0x3#4 0xB#4 0xCD82FEAD#32 0x9F525265#32),
    ([0xE853#16, 0xC0CB#16, 0xACD1#16, 0xA323#16, 0x1E1F#16], .unimpFive28 0x5#4 0x3#4 0xC0CBACD1#32 0xA3231E1F#32),
    ([0xE9F7#16, 0xA9AC#16, 0xF1A5#16, 0xAAF7#16, 0x19F3#16], .unimpFive29 0xF#4 0x7#4 0xA9ACF1A5#32 0xAAF719F3#32),
    ([0xEA75#16, 0x6BD8#16, 0xC677#16, 0x5B4B#16, 0x1B75#16], .unimpFive2A 0x7#4 0x5#4 0x6BD8C677#32 0x5B4B1B75#32),
    ([0xEB77#16, 0x3401#16, 0xBA85#16, 0x6264#16, 0x67BB#16], .unimpFive2B 0x7#4 0x7#4 0x3401BA85#32 0x626467BB#32),
    ([0xEC1F#16, 0xEB25#16, 0xF8A1#16, 0xBA82#16, 0x8159#16], .shrG32 0x1#4 0xF#4 0xEB25F8A1#32 0xBA828159#32),
    ([0xEDFD#16, 0x2E7A#16, 0x26E9#16, 0x417A#16, 0x9263#16], .ushrG32 0xF#4 0xD#4 0x2E7A26E9#32 0x417A9263#32),
    ([0xEEF5#16, 0x67EC#16, 0x326B#16, 0x895E#16, 0x8B6B#16], .shlG32 0xF#4 0x5#4 0x67EC326B#32 0x895E8B6B#32),
    ([0xEF51#16, 0xCCB1#16, 0xC51D#16, 0x2EEF#16, 0xA279#16], .udivG32 0x5#4 0x1#4 0xCCB1C51D#32 0x2EEFA279#32)] = true := by decide

/-- Words of the encodings of 30_encoding.md R127, R155, written out field by field. -/
theorem test_decode_five_parcel_3 : decodesAll [
    ([0xF01D#16, 0x42B3#16, 0x8755#16, 0x9BB1#16, 0x83E1#16], .sub3G32 0x1#4 0xD#4 0x42B38755#32 0x9BB183E1#32),
    ([0xF115#16, 0xFE8A#16, 0xD4A1#16, 0xEAF2#16, 0x5749#16], .or3G32 0x1#4 0x5#4 0xFE8AD4A1#32 0xEAF25749#32),
    ([0xF2B3#16, 0x7029#16, 0x0531#16, 0x781E#16, 0x54DD#16], .and3G32 0xB#4 0x3#4 0x70290531#32 0x781E54DD#32),
    ([0xF3B5#16, 0x87F5#16, 0x3DDD#16, 0x34B3#16, 0xFF61#16], .add3G32 0xB#4 0x5#4 0x87F53DDD#32 0x34B3FF61#32),
    ([0xF4D1#16, 0x7E97#16, 0x7C57#16, 0x0975#16, 0x8341#16], .xor3G32 0xD#4 0x1#4 0x7E977C57#32 0x9758341#32),
    ([0xF597#16, 0xBEE4#16, 0xDA5B#16, 0x7272#16, 0x3B9D#16], .rem3G32 0x9#4 0x7#4 0xBEE4DA5B#32 0x72723B9D#32),
    ([0xF69D#16, 0x6383#16, 0x8B9F#16, 0xF866#16, 0x64AF#16], .mul3G32 0x9#4 0xD#4 0x63838B9F#32 0xF86664AF#32),
    ([0xF73D#16, 0xE1C6#16, 0x0AA3#16, 0xBA95#16, 0x8811#16], .div3G32 0x3#4 0xD#4 0xE1C60AA3#32 0xBA958811#32),
    ([0xF8D3#16, 0x03A6#16, 0x3967#16, 0xA01D#16, 0x616F#16], .unimpFive38 0xD#4 0x3#4 0x3A63967#32 0xA01D616F#32),
    ([0xF9BD#16, 0xE181#16, 0x77FF#16, 0x8185#16, 0x797D#16], .unimpFive39 0xB#4 0xD#4 0xE18177FF#32 0x8185797D#32),
    ([0xFA17#16, 0x2F73#16, 0x3B05#16, 0x44DF#16, 0x96FF#16], .unimpFive3A 0x1#4 0x7#4 0x2F733B05#32 0x44DF96FF#32),
    ([0xFBF9#16, 0x52D3#16, 0x1E1B#16, 0x88D1#16, 0x8011#16], .unimpFive3B 0xF#4 0x9#4 0x52D31E1B#32 0x88D18011#32),
    ([0xFC57#16, 0x1579#16, 0xDA0B#16, 0xC767#16, 0xE1FB#16], .shr3G32 0x5#4 0x7#4 0x1579DA0B#32 0xC767E1FB#32),
    ([0xFD15#16, 0x5129#16, 0xD067#16, 0x24D4#16, 0x589D#16], .ushr3G32 0x1#4 0x5#4 0x5129D067#32 0x24D4589D#32),
    ([0xFEB3#16, 0x95A0#16, 0xA8AF#16, 0xF527#16, 0xB5C3#16], .shl3G32 0xB#4 0x3#4 0x95A0A8AF#32 0xF527B5C3#32),
    ([0xFFDF#16, 0x18B8#16, 0x1C67#16, 0x43A9#16, 0xE889#16], .unimpFive3F 0xD#4 0xF#4 0x18B81C67#32 0x43A9E889#32)] = true := by decide

/-- Words of the encodings of 30_encoding.md R125, R153, written out field by field. -/
theorem test_decode_three_parcel_1 : decodesAll [
    ([0x811D#16, 0x97F5#16, 0x451B#16], .oriG16 0x1#4 0xD#4 0x97F5#16 0x451B#16),
    ([0x825B#16, 0x93F5#16, 0xAE65#16], .andiG16 0x5#4 0xB#4 0x93F5#16 0xAE65#16),
    ([0x8351#16, 0x70CF#16, 0x5AFF#16], .addiG16 0x5#4 0x1#4 0x70CF#16 0x5AFF#16),
    ([0x8453#16, 0x3D05#16, 0x65DD#16], .movaG16 0x5#4 0x3#4 0x3D05#16 0x65DD#16),
    ([0x8579#16, 0xC721#16, 0xA30D#16], .uremG16 0x7#4 0x9#4 0xC721#16 0xA30D#16),
    ([0x86F5#16, 0xAEC7#16, 0xE165#16], .movG16 0xF#4 0x5#4 0xAEC7#16 0xE165#16),
    ([0x87B3#16, 0x0317#16, 0xD4C3#16], .dqmG16 0xB#4 0x3#4 0x317#16 0xD4C3#16),
    ([0x8895#16, 0x9C1D#16, 0xD191#16], .unimpThree08 0x9#4 0x5#4 0x9C1D#16 0xD191#16),
    ([0x89BB#16, 0x3D63#16, 0xF4E7#16], .unimpThree09 0xB#4 0xB#4 0x3D63#16 0xF4E7#16),
    ([0x8A97#16, 0x65E7#16, 0x64E5#16], .unimpThree0A 0x9#4 0x7#4 0x65E7#16 0x64E5#16),
    ([0x8BF3#16, 0x70CD#16, 0x1C25#16], .unimpThree0B 0xF#4 0x3#4 0x70CD#16 0x1C25#16),
    ([0x8C91#16, 0x72EF#16, 0x1D1D#16], .taddG16 0x9#4 0x1#4 0x72EF#16 0x1D1D#16),
    ([0x8DB5#16, 0x7499#16, 0x1A2F#16], .tsubG16 0xB#4 0x5#4 0x7499#16 0x1A2F#16),
    ([0x8EF7#16, 0x7AFB#16, 0x4FD5#16], .unimpThree0E 0xF#4 0x7#4 0x7AFB#16 0x4FD5#16),
    ([0x8F7D#16, 0x312B#16, 0x042F#16], .unimpThree0F 0x7#4 0xD#4 0x312B#16 0x42F#16),
    ([0x90B9#16, 0x6A05#16, 0xC215#16], .unimpThree10 0xB#4 0x9#4 0x6A05#16 0xC215#16),
    ([0x91D5#16, 0x04B5#16, 0x6883#16], .unimpThree11 0xD#4 0x5#4 0x4B5#16 0x6883#16),
    ([0x9295#16, 0x22ED#16, 0x9CFD#16], .unimpThree12 0x9#4 0x5#4 0x22ED#16 0x9CFD#16),
    ([0x933D#16, 0xE693#16, 0x4DA7#16], .unimpThree13 0x3#4 0xD#4 0xE693#16 0x4DA7#16),
    ([0x94F1#16, 0x4A45#16, 0x78E5#16], .unimpThree14 0xF#4 0x1#4 0x4A45#16 0x78E5#16),
    ([0x95DF#16, 0xB91F#16, 0xD97B#16], .unimpThree15 0xD#4 0xF#4 0xB91F#16 0xD97B#16),
    ([0x9673#16, 0x5675#16, 0xFB8F#16], .unimpThree16 0x7#4 0x3#4 0x5675#16 0xFB8F#16),
    ([0x97FB#16, 0xD811#16, 0x24A5#16], .unimpThree17 0xF#4 0xB#4 0xD811#16 0x24A5#16),
    ([0x98BD#16, 0x3307#16, 0x6397#16], .unimpThree18 0xB#4 0xD#4 0x3307#16 0x6397#16)] = true := by decide

/-- Words of the encodings of 30_encoding.md R125, R153, written out field by field. -/
theorem test_decode_three_parcel_2 : decodesAll [
    ([0x99FF#16, 0x38C9#16, 0x7691#16], .unimpThree19 0xF#4 0xF#4 0x38C9#16 0x7691#16),
    ([0x9AF3#16, 0x070D#16, 0x973F#16], .unimpThree1A 0xF#4 0x3#4 0x70D#16 0x973F#16),
    ([0x9B9F#16, 0xF96F#16, 0x6FFD#16], .unimpThree1B 0x9#4 0xF#4 0xF96F#16 0x6FFD#16),
    ([0x9CDF#16, 0xB9F3#16, 0x9A4F#16], .unimpThree1C 0xD#4 0xF#4 0xB9F3#16 0x9A4F#16),
    ([0x9D3D#16, 0x5FB9#16, 0x072B#16], .cmpgtG16 0x3#4 0xD#4 0x5FB9#16 0x72B#16),
    ([0x9E55#16, 0x0B5B#16, 0x558D#16], .cmphiG16 0x5#4 0x5#4 0xB5B#16 0x558D#16),
    ([0x9FB9#16, 0xD0A7#16, 0x044B#16], .cmpeqG16 0xB#4 0x9#4 0xD0A7#16 0x44B#16),
    ([0xA039#16, 0x02B3#16, 0x5F71#16], .subG16 0x3#4 0x9#4 0x2B3#16 0x5F71#16),
    ([0xA133#16, 0x243D#16, 0x9E7D#16], .orG16 0x3#4 0x3#4 0x243D#16 0x9E7D#16),
    ([0xA299#16, 0xFB85#16, 0x46C9#16], .andG16 0x9#4 0x9#4 0xFB85#16 0x46C9#16),
    ([0xA31D#16, 0x9905#16, 0xF3C1#16], .addG16 0x1#4 0xD#4 0x9905#16 0xF3C1#16),
    ([0xA459#16, 0xF92F#16, 0x9B2B#16], .xorG16 0x5#4 0x9#4 0xF92F#16 0x9B2B#16),
    ([0xA5D7#16, 0x81FD#16, 0xBF67#16], .remG16 0xD#4 0x7#4 0x81FD#16 0xBF67#16),
    ([0xA6F9#16, 0xE48B#16, 0xB3DD#16], .mulG16 0xF#4 0x9#4 0xE48B#16 0xB3DD#16),
    ([0xA751#16, 0x2BD1#16, 0x6DA7#16], .divG16 0x5#4 0x1#4 0x2BD1#16 0x6DA7#16),
    ([0xA8D3#16, 0xF083#16, 0xA4B9#16], .unimpThree28 0xD#4 0x3#4 0xF083#16 0xA4B9#16),
    ([0xA973#16, 0xBF27#16, 0x1819#16], .unimpThree29 0x7#4 0x3#4 0xBF27#16 0x1819#16),
    ([0xAA33#16, 0x34D1#16, 0xFE7B#16], .unimpThree2A 0x3#4 0x3#4 0x34D1#16 0xFE7B#16),
    ([0xAB1B#16, 0x5DAF#16, 0xD685#16], .unimpThree2B 0x1#4 0xB#4 0x5DAF#16 0xD685#16),
    ([0xAC99#16, 0xCBA3#16, 0x75F5#16], .shrG16 0x9#4 0x9#4 0xCBA3#16 0x75F5#16),
    ([0xADF1#16, 0x1585#16, 0x459D#16], .ushrG16 0xF#4 0x1#4 0x1585#16 0x459D#16),
    ([0xAED7#16, 0xD97F#16, 0xAD0D#16], .shlG16 0xD#4 0x7#4 0xD97F#16 0xAD0D#16),
    ([0xAF99#16, 0xFE9F#16, 0x53B9#16], .udivG16 0x9#4 0x9#4 0xFE9F#16 0x53B9#16),
    ([0xB0F1#16, 0xC4D9#16, 0x844F#16], .sub3G16 0xF#4 0x1#4 0xC4D9#16 0x844F#16)] = true := by decide

/-- Words of the encodings of 30_encoding.md R125, R153, written out field by field. -/
theorem test_decode_three_parcel_3 : decodesAll [
    ([0xB131#16, 0xC3B3#16, 0x1F27#16], .or3G16 0x3#4 0x1#4 0xC3B3#16 0x1F27#16),
    ([0xB2F5#16, 0x1F27#16, 0x8B0F#16], .and3G16 0xF#4 0x5#4 0x1F27#16 0x8B0F#16),
    ([0xB351#16, 0x2E5F#16, 0x6EA7#16], .add3G16 0x5#4 0x1#4 0x2E5F#16 0x6EA7#16),
    ([0xB479#16, 0x2C13#16, 0x4541#16], .xor3G16 0x7#4 0x9#4 0x2C13#16 0x4541#16),
    ([0xB51B#16, 0x8173#16, 0x7A61#16], .rem3G16 0x1#4 0xB#4 0x8173#16 0x7A61#16),
    ([0xB6BD#16, 0x266D#16, 0x2811#16], .mul3G16 0xB#4 0xD#4 0x266D#16 0x2811#16),
    ([0xB75B#16, 0xB717#16, 0x3AC5#16], .div3G16 0x5#4 0xB#4 0xB717#16 0x3AC5#16),
    ([0xB837#16, 0x7D4B#16, 0x7B5D#16], .unimpThree38 0x3#4 0x7#4 0x7D4B#16 0x7B5D#16),
    ([0xB9F5#16, 0x6E45#16, 0x0E2F#16], .unimpThree39 0xF#4 0x5#4 0x6E45#16 0xE2F#16),
    ([0xBAF5#16, 0x1949#16, 0x3153#16], .unimpThree3A 0xF#4 0x5#4 0x1949#16 0x3153#16),
    ([0xBB15#16, 0xDD39#16, 0xD435#16], .unimpThree3B 0x1#4 0x5#4 0xDD39#16 0xD435#16),
    ([0xBCF5#16, 0x37C7#16, 0x2ED7#16], .shr3G16 0xF#4 0x5#4 0x37C7#16 0x2ED7#16),
    ([0xBDB3#16, 0xBF89#16, 0x46B7#16], .ushr3G16 0xB#4 0x3#4 0xBF89#16 0x46B7#16),
    ([0xBE91#16, 0x64DB#16, 0x4CB5#16], .shl3G16 0x9#4 0x1#4 0x64DB#16 0x4CB5#16),
    ([0xBFDD#16, 0xA7BF#16, 0xE48F#16], .unimpThree3F 0xD#4 0xD#4 0xA7BF#16 0xE48F#16)] = true := by decide

/-- The CPU prefix (R128), before a three-parcel and a one-parcel instruction. -/
theorem test_decode_cpu : decodesAll [
    ([0x2C00#16, 0x867D#16, 0x0005#16, 0x0008#16], .cpuWide (.movG16 0x7#4 0xD#4 0x0005#16 0x0008#16)),
    ([0x2C00#16, 0x2C02#16], .cpuShort 0x2C02#16)] = true := by decide

/-- Table words, numbered as spec/opcode_table.json numbers bits. -/
theorem test_decode_table_word : decodeTableWord 48 0x00080005867D = some (.movG16 0x7#4 0xD#4 0x0005#16 0x0008#16) := by
  decide

/-! One step of each instruction: spec/95_test_vectors.md, its start state D0 and its results. -/

/-- A word put in memory. -/
def w (a v : Word) (s : State) : State := s.setMem (Memory.writeBE s.mem a 4 v)

/-- The word in memory. -/
def word (a : Word) (s : State) : Word := Memory.readBE s.mem a 4

/-- PSW, and the addressing mode that goes with it. -/
def psw (v : Word) (s : State) : State := (s.setPsw v).setVpEff (pswVP v)

/-- CONFIG, in effect. -/
def cfg (v : Word) (s : State) : State := (s.setConfig v).setConfigEff v

/-- The start state D0 of 95_test_vectors.md, with a word in each vector used. -/
def base : State :=
  w 0x400#32 0x2000#32 <| w 0x404#32 0x2101#32 <| w 0x408#32 0x3101#32 <| w 0x40C#32 0x3001#32
    { State.reset with
      pc := 0x1000#32, isp := 0x7000#32, shad := 0x7000#32, sp := 0x8000#32, msp := 0x8000#32, vb := 0x400#32 }

/-- D0 on SP with the stack cache on and its window given. -/
def window (sp msp : Word) : State :=
  cfg 0x40000#32 (psw 0x200#32 { base with sp := sp, msp := msp, shad := sp })

/-- Whether an instruction answers a next state with a property. -/
def after (i : Instr) (s : State) (p : State → Bool) : Bool :=
  match exec i s with
  | .next t => p t
  | _ => false

/-- 95_test_vectors.md VA1. -/
theorem test_add_carry : after (.addCS 1#5 2#5) (w 0x7008#32 0xFFFFFFFF#32 <| base)
    (fun t => word 0x7008#32 t == 0#32 && t.psw == 0x20#32) = true := by decide

/-- 95_test_vectors.md VA4. -/
theorem test_add_stack : after (.addSS 2#5 3#5) (w 0x7008#32 0x80000000#32 <| w 0x700C#32 0x80000000#32 <| base)
    (fun t => word 0x700C#32 t == 0#32 && t.psw == 0x60#32) = true := by decide

/-- 95_test_vectors.md VA9. -/
theorem test_add_byte : after (.addG16 0xF#4 0x4#4 1#16 8#16) (w 0x7008#32 0x7F123456#32 <| base)
    (fun t => word 0x7008#32 t == 0x80123456#32 && t.psw == 0#32) = true := by decide

/-- 95_test_vectors.md VA10. -/
theorem test_add_byte_little : after (.addG16 0xF#4 0x4#4 1#16 8#16) (cfg 0x10000#32 <| w 0x7008#32 0x7F123456#32 <| base)
    (fun t => word 0x7008#32 t == 0x7F123457#32) = true := by decide

/-- 95_test_vectors.md VA5. -/
theorem test_add3_overflow : after (.add3CS 0x1F#5 2#5) (w 0x7008#32 0x80000000#32 <| base)
    (fun t => word 0x7004#32 t == 0x7FFFFFFF#32 && t.psw == 0x60#32) = true := by decide

/-- 95_test_vectors.md VA7. -/
theorem test_add3_stack : after (.add3SS 2#5 3#5) (w 0x7008#32 1#32 <| w 0x700C#32 2#32 <| base)
    (fun t => word 0x7004#32 t == 3#32) = true := by decide

/-- 95_test_vectors.md VA8. -/
theorem test_add3_word_constant : after (.add3WS 2#5 3#5) (w 0x700C#32 0x2000#32 <| base)
    (fun t => word 0x7004#32 t == 0x2008#32) = true := by decide

/-- 95_test_vectors.md VA13. -/
theorem test_sub_borrow : after (.subG16 0xF#4 0xD#4 1#16 8#16) base
    (fun t => word 0x7008#32 t == 0xFFFFFFFF#32 && t.psw == 0x20#32) = true := by decide

/-- 95_test_vectors.md VA15. -/
theorem test_sub_overflow : after (.subG16 0xF#4 0xD#4 0xFFFF#16 8#16) (w 0x7008#32 0x7FFFFFFF#32 <| base)
    (fun t => word 0x7008#32 t == 0x80000000#32 && t.psw == 0x60#32) = true := by decide

/-- 95_test_vectors.md VA17. -/
theorem test_sub3 : after (.sub3G16 0xF#4 0xD#4 1#16 8#16) (w 0x7008#32 0x80000000#32 <| base)
    (fun t => word 0x7004#32 t == 0x7FFFFFFF#32 && t.psw == 0x40#32) = true := by decide

/-- 95_test_vectors.md VA18. -/
theorem test_mul : after (.mulG16 0xF#4 0xD#4 3#16 8#16) (w 0x7008#32 0x55555556#32 <| base)
    (fun t => word 0x7008#32 t == 2#32 && t.psw == 0x60#32) = true := by decide

/-- 95_test_vectors.md VA19. -/
theorem test_mul3 : after (.mul3G16 0xF#4 0xD#4 0xFFFF#16 8#16) (w 0x7008#32 2#32 <| base)
    (fun t => word 0x7004#32 t == 0xFFFFFFFE#32 && t.psw == 0x20#32) = true := by decide

/-- 95_test_vectors.md VA25. -/
theorem test_div_overflow : after (.divG16 0xF#4 0xD#4 0xFFFF#16 8#16) (w 0x7008#32 0x80000000#32 <| base)
    (fun t => word 0x7008#32 t == 0x80000000#32 && t.psw == 0x40#32) = true := by decide

/-- 95_test_vectors.md VA26. -/
theorem test_div_by_zero : after (.divG16 0xF#4 0xD#4 0#16 8#16) (psw 0x60#32 <| w 0x7008#32 100#32 <| base)
    (fun t => word 0x6FF4#32 t == 1#32 && t.pc == 0x2100#32 && word 0x6FFC#32 t == 0x60#32 && word 0x7008#32 t == 100#32) = true := by decide

/-- 95_test_vectors.md VA31. -/
theorem test_rem_overflow : after (.remG16 0xF#4 0xD#4 0xFFFF#16 8#16) (psw 0x40#32 <| w 0x7008#32 0x80000000#32 <| base)
    (fun t => word 0x7008#32 t == 0#32 && t.psw == 0#32) = true := by decide

/-- 95_test_vectors.md VA34. -/
theorem test_udiv : after (.udivG16 0xF#4 0xD#4 2#16 8#16) (psw 0x60#32 <| w 0x7008#32 0xFFFFFFFF#32 <| base)
    (fun t => word 0x7008#32 t == 0x7FFFFFFF#32 && t.psw == 0x40#32) = true := by decide

/-- 95_test_vectors.md VA35. -/
theorem test_udiv_signed_byte_divisor : after (.udivG16 0x4#4 0xD#4 0xC#16 8#16) (w 0x700C#32 0xFF000000#32 <| w 0x7008#32 0xFFFFFFFF#32 <| base)
    (fun t => word 0x7008#32 t == 1#32) = true := by decide

/-- 95_test_vectors.md VA38. -/
theorem test_urem : after (.uremG16 0xF#4 0xD#4 0xA#16 8#16) (w 0x7008#32 0xFFFFFFFF#32 <| base)
    (fun t => word 0x7008#32 t == 5#32) = true := by decide

/-- 95_test_vectors.md VA39. -/
theorem test_addi : after (.addiG16 0xF#4 0xC#4 1#16 0x3000#16) (psw 0x70#32 <| w 0x3000#32 5#32 <| w 0x7004#32 99#32 <| base)
    (fun t => word 0x3000#32 t == 6#32 && word 0x7004#32 t == 5#32 && t.psw == 0x70#32) = true := by decide

/-- 95_test_vectors.md VA40. -/
theorem test_addi_to_accumulator : after (.addiG16 0xF#4 0xD#4 1#16 4#16) (w 0x7004#32 9#32 <| base)
    (fun t => word 0x7004#32 t == 9#32) = true := by decide

/-- 95_test_vectors.md VA42. -/
theorem test_alignment_before_zero_divide : after (.divG16 0xF#4 0x6#4 0#16 9#16) base
    (fun t => word 0x6FF4#32 t == 4#32 && t.pc == 0x2100#32) = true := by decide

/-- 95_test_vectors.md VC2. -/
theorem test_cmpeq_short : after (.cmpeqCS 0x10#5 2#5) (w 0x7008#32 0xFFFFFFF0#32 <| base)
    (fun t => t.psw == 0x10#32) = true := by decide

/-- 95_test_vectors.md VC3. -/
theorem test_cmpeq_stack : after (.cmpeqSS 2#5 3#5) (psw 0x10#32 <| w 0x7008#32 1#32 <| w 0x700C#32 2#32 <| base)
    (fun t => t.psw == 0#32) = true := by decide

/-- 95_test_vectors.md VC4. -/
theorem test_cmpgt_short : after (.cmpgtCS 5#5 2#5) (w 0x7008#32 0xFFFFFFFF#32 <| base)
    (fun t => t.psw == 0x10#32) = true := by decide

/-- 95_test_vectors.md VC5. -/
theorem test_cmpgt_stack : after (.cmpgtSS 2#5 3#5) (w 0x7008#32 0x80000000#32 <| w 0x700C#32 0x7FFFFFFF#32 <| base)
    (fun t => t.psw == 0#32) = true := by decide

/-- 95_test_vectors.md VC7. -/
theorem test_cmphi : after (.cmphiG16 0xF#4 0xD#4 5#16 8#16) (w 0x7008#32 0xFFFFFFFF#32 <| base)
    (fun t => t.psw == 0#32) = true := by decide

/-- 95_test_vectors.md VC8. -/
theorem test_cmphi_immediate_second : after (.cmphiG16 0xD#4 0xF#4 8#16 5#16) (w 0x7008#32 0xFFFFFFFF#32 <| base)
    (fun t => t.psw == 0x10#32) = true := by decide

/-- 95_test_vectors.md VC9. -/
theorem test_cmpgt_unsigned_byte : after (.cmpgtG16 0x5#4 0xF#4 8#16 0#16) (w 0x7008#32 0xFF000000#32 <| base)
    (fun t => t.psw == 0x10#32) = true := by decide

/-- 95_test_vectors.md VC11. -/
theorem test_cmpeq_five_parcel : after (.cmpeqG32 0xF#4 0xD#4 0x12345678#32 8#32) (w 0x7008#32 0x12345678#32 <| base)
    (fun t => t.psw == 0x10#32 && t.pc == 0x100A#32) = true := by decide

/-- 95_test_vectors.md VL2. -/
theorem test_and_sign_extends : after (.andG16 0xF#4 0xD#4 0xFF00#16 8#16) (psw 0x70#32 <| w 0x7008#32 0x12345678#32 <| base)
    (fun t => word 0x7008#32 t == 0x12345600#32 && t.psw == 0x70#32) = true := by decide

/-- 95_test_vectors.md VL3. -/
theorem test_and_five_parcel : after (.andG32 0xF#4 0xD#4 0xFF00#32 8#32) (w 0x7008#32 0x12345678#32 <| base)
    (fun t => word 0x7008#32 t == 0x5600#32) = true := by decide

/-- 95_test_vectors.md VL5. -/
theorem test_and3_short : after (.and3CS 0x10#5 2#5) (w 0x7008#32 0x12345678#32 <| base)
    (fun t => word 0x7004#32 t == 0x12345670#32) = true := by decide

/-- 95_test_vectors.md VL6. -/
theorem test_and_stack : after (.andSS 2#5 3#5) (w 0x7008#32 0x0F0F0F0F#32 <| w 0x700C#32 0x12345678#32 <| base)
    (fun t => word 0x700C#32 t == 0x02040608#32) = true := by decide

/-- 95_test_vectors.md VL8. -/
theorem test_or : after (.orG16 0xF#4 0xD#4 0x10#16 8#16) (w 0x7008#32 1#32 <| base)
    (fun t => word 0x7008#32 t == 0x11#32) = true := by decide

/-- 95_test_vectors.md VL9. -/
theorem test_or3 : after (.or3G16 0xF#4 0xD#4 0x10#16 8#16) (w 0x7008#32 1#32 <| base)
    (fun t => word 0x7004#32 t == 0x11#32 && word 0x7008#32 t == 1#32) = true := by decide

/-- 95_test_vectors.md VL10. -/
theorem test_xor : after (.xorG16 0xF#4 0xD#4 0xFFFF#16 8#16) (w 0x7008#32 0x0F0F0F0F#32 <| base)
    (fun t => word 0x7008#32 t == 0xF0F0F0F0#32) = true := by decide

/-- 95_test_vectors.md VL11. -/
theorem test_xor3 : after (.xor3G16 0xD#4 0xD#4 8#16 8#16) (w 0x7008#32 7#32 <| w 0x7004#32 5#32 <| base)
    (fun t => word 0x7004#32 t == 0#32) = true := by decide

/-- 95_test_vectors.md VL12. -/
theorem test_andi : after (.andiG16 0xF#4 0xC#4 0xFFFE#16 0x2000#16) (w 0x2000#32 3#32 <| base)
    (fun t => word 0x2000#32 t == 2#32 && word 0x7004#32 t == 3#32) = true := by decide

/-- 95_test_vectors.md VL13. -/
theorem test_ori : after (.oriG16 0xF#4 0xC#4 1#16 0x2000#16) (w 0x7004#32 9#32 <| base)
    (fun t => word 0x2000#32 t == 1#32 && word 0x7004#32 t == 0#32) = true := by decide

/-- 95_test_vectors.md VM2. -/
theorem test_mov_constant : after (.movCS 0x1F#5 2#5) base
    (fun t => word 0x7008#32 t == 0xFFFFFFFF#32) = true := by decide

/-- 95_test_vectors.md VM3. -/
theorem test_mov_word_constant : after (.movWS 0x1F#5 2#5) base
    (fun t => word 0x7008#32 t == 124#32) = true := by decide

/-- 95_test_vectors.md VM4. -/
theorem test_mov_stack : after (.movSS 1#5 3#5) (w 0x7004#32 0xCAFE#32 <| base)
    (fun t => word 0x700C#32 t == 0xCAFE#32) = true := by decide

/-- 95_test_vectors.md VM5. -/
theorem test_mov_from_indirect : after (.movIS 2#5 3#5) (w 0x7008#32 0x3000#32 <| w 0x3000#32 0xCAFEF00D#32 <| base)
    (fun t => word 0x700C#32 t == 0xCAFEF00D#32) = true := by decide

/-- 95_test_vectors.md VM6. -/
theorem test_mov_to_indirect : after (.movSI 3#5 2#5) (w 0x700C#32 0x55#32 <| w 0x7008#32 0x3000#32 <| base)
    (fun t => word 0x3000#32 t == 0x55#32) = true := by decide

/-- 95_test_vectors.md VM7. -/
theorem test_mov_indirect_both : after (.movII 2#5 3#5) (w 0x7008#32 0x3000#32 <| w 0x700C#32 0x3004#32 <| w 0x3000#32 9#32 <| base)
    (fun t => word 0x3004#32 t == 9#32) = true := by decide

/-- 95_test_vectors.md VM13. -/
theorem test_mov_to_byte : after (.movG16 0xD#4 0x4#4 8#16 0xC#16) (w 0x7008#32 0x12345678#32 <| w 0x700C#32 0xAAAAAAAA#32 <| base)
    (fun t => word 0x700C#32 t == 0x78AAAAAA#32) = true := by decide

/-- 95_test_vectors.md VM18. -/
theorem test_mov_from_byte_little : after (.movG16 0x1#4 0xD#4 0x3001#16 8#16) (cfg 0x10000#32 <| w 0x3000#32 0x11223344#32 <| base)
    (fun t => word 0x7008#32 t == 0x33#32) = true := by decide

/-- 95_test_vectors.md VM9. -/
theorem test_mov_five_parcel : after (.movG32 0xF#4 0xD#4 0x8000#32 8#32) base
    (fun t => word 0x7008#32 t == 0x8000#32 && t.pc == 0x100A#32) = true := by decide

/-- 95_test_vectors.md VM22. -/
theorem test_mova_stack : after (.movaSS 3#5 2#5) base (fun t => word 0x7008#32 t == 0x700C#32) = true := by decide

/-- 95_test_vectors.md VM24. -/
theorem test_mova_indirect : after (.movaG16 0xE#4 0xD#4 0xC#16 8#16) (w 0x700C#32 0xDEAD0001#32 <| base)
    (fun t => word 0x7008#32 t == 0xDEAD0001#32) = true := by decide

/-- 95_test_vectors.md VM26. -/
theorem test_mova_byte_mode : after (.movaG16 0x4#4 0xD#4 8#16 0xC#16) base
    (fun t => word 0x6FF4#32 t == 3#32 && t.pc == 0x2100#32) = true := by decide

/-- 95_test_vectors.md VM28. -/
theorem test_ldraa : after (.ldraaF32 0xE#4 0x100#32) base
    (fun t => word 0x7004#32 t == 0x1100#32) = true := by decide

/-- 95_test_vectors.md VM31. -/
theorem test_dqm_double : after (.dqmG16 0xF#4 0x4#4 0#16 0x10#16) (w 0x7010#32 1#32 <| w 0x7014#32 2#32 <| w 0x7018#32 3#32 <| base)
    (fun t => word 0x7010#32 t == 0#32 && word 0x7014#32 t == 0#32 && word 0x7018#32 t == 3#32) = true := by decide

/-- 95_test_vectors.md VM33. -/
theorem test_dqm_quad : after (.dqmG16 0xD#4 0xD#4 0x10#16 0x20#16) (w 0x7010#32 1#32 <| w 0x701C#32 4#32 <| base)
    (fun t => word 0x7020#32 t == 1#32 && word 0x702C#32 t == 4#32) = true := by decide

/-- 95_test_vectors.md VS1. -/
theorem test_shl : after (.shlG16 0xF#4 0xD#4 4#16 8#16) (w 0x7008#32 0xF0000001#32 <| base)
    (fun t => word 0x7008#32 t == 0x10#32) = true := by decide

/-- 95_test_vectors.md VS4. -/
theorem test_shl_count_31 : after (.shlG16 0xF#4 0xD#4 0xFFFF#16 8#16) (w 0x7008#32 1#32 <| base)
    (fun t => word 0x7008#32 t == 0x80000000#32) = true := by decide

/-- 95_test_vectors.md VS7. -/
theorem test_shl3_short_count_31 : after (.shl3CS 0x1F#5 2#5) (w 0x7008#32 3#32 <| base)
    (fun t => word 0x7004#32 t == 0x80000000#32) = true := by decide

/-- 95_test_vectors.md VS9. -/
theorem test_shr : after (.shrG16 0xF#4 0xD#4 0x1F#16 8#16) (w 0x7008#32 0x80000000#32 <| base)
    (fun t => word 0x7008#32 t == 0xFFFFFFFF#32) = true := by decide

/-- 95_test_vectors.md VS10. -/
theorem test_shr3 : after (.shr3CS 1#5 2#5) (w 0x7008#32 0xFFFFFFFE#32 <| base)
    (fun t => word 0x7004#32 t == 0xFFFFFFFF#32) = true := by decide

/-- 95_test_vectors.md VS13. -/
theorem test_ushr_byte : after (.ushrG16 0xF#4 0x4#4 4#16 8#16) (w 0x7008#32 0x80AAAAAA#32 <| base)
    (fun t => word 0x7008#32 t == 0xF8AAAAAA#32) = true := by decide

/-- 95_test_vectors.md VS12. -/
theorem test_ushr3 : after (.ushr3G16 0xF#4 0xD#4 0x1F#16 8#16) (w 0x7008#32 0x80000000#32 <| base)
    (fun t => word 0x7004#32 t == 1#32) = true := by decide

/-- 95_test_vectors.md VT2. -/
theorem test_tadd_tagged : after (.taddG16 0xF#4 0xD#4 4#16 8#16) (psw 0x60#32 <| w 0x7008#32 9#32 <| base)
    (fun t => word 0x7008#32 t == 9#32 && t.psw == 0x70#32) = true := by decide

/-- 95_test_vectors.md VT4. -/
theorem test_tadd_overflow : after (.taddG16 0xF#4 0xD#4 4#16 8#16) (w 0x7008#32 0x7FFFFFFC#32 <| base)
    (fun t => word 0x7008#32 t == 0x7FFFFFFC#32 && t.psw == 0x50#32) = true := by decide

/-- 95_test_vectors.md VT6. -/
theorem test_tsub : after (.tsubG16 0xF#4 0xD#4 4#16 8#16) base
    (fun t => word 0x7008#32 t == 0xFFFFFFFC#32 && t.psw == 0x20#32) = true := by decide

/-- 95_test_vectors.md VO2. -/
theorem test_testc : after (.testc) (psw 0x60#32 <| base) (fun t => t.psw == 0x50#32) = true := by decide

/-- 95_test_vectors.md VO3. -/
theorem test_testv : after (.testv) (psw 0x60#32 <| base) (fun t => t.psw == 0x30#32) = true := by decide

/-- 95_test_vectors.md VO4. -/
theorem test_clre : after (.clre) (psw 0x870#32 <| base) (fun t => t.psw == 0x70#32) = true := by decide

/-- 95_test_vectors.md VO1. -/
theorem test_nop : after (.nop) (psw 0x60#32 <| base)
    (fun t => t.pc == 0x1002#32 && t.psw == 0x60#32) = true := by decide

/-- 95_test_vectors.md VO5. -/
theorem test_mov_from_psw : after (.cpuWide (.movG16 0x7#4 0xD#4 5#16 8#16)) (psw 0x20#32 <| base)
    (fun t => word 0x7008#32 t == 0x20#32 && t.pc == 0x1008#32) = true := by decide

/-- 95_test_vectors.md VO8. -/
theorem test_mov_to_sp : after (.cpuWide (.movG16 0xF#4 0x7#4 0x7005#16 3#16)) base
    (fun t => t.sp == 0x7000#32 && t.msp == 0x7000#32 && t.shad == 0x7000#32) = true := by decide

/-- 95_test_vectors.md VO25. -/
theorem test_flushd : after (.flushd) base
    (fun t => word 0x7000#32 t == 0x1000#32 && t.pc == 0x3000#32) = true := by decide

/-- 95_test_vectors.md VO26. -/
theorem test_flushdce : after (.flushdceW32 0xE#4 8#32) base
    (fun t => word 0x7000#32 t == 0x1000#32 && t.pc == 0x3000#32) = true := by decide

/-- 95_test_vectors.md VO27. -/
theorem test_trapped_niladic : after (.trappedNiladic 0x1FF#9) base
    (fun t => word 0x7000#32 t == 0x1000#32 && t.pc == 0x3100#32) = true := by decide

/-- 95_test_vectors.md VO28. -/
theorem test_unimplemented_byte_modes : after (.unimpThree2B 0#4 0#4 1#16 1#16) base
    (fun t => word 0x7000#32 t == 0x1000#32 && t.pc == 0x3000#32) = true := by decide

/-- 95_test_vectors.md VO28. -/
theorem test_unimplemented_five_parcel : after (.unimpFive00 0xF#4 0xD#4 0#32 0#32) base
    (fun t => word 0x7000#32 t == 0x1000#32 && t.pc == 0x3000#32) = true := by decide

/-- 95_test_vectors.md VO30. -/
theorem test_flushpte : after (.flushpteW32 0xF#4 0x403000#32) { base with dataTlb := [⟨0x403#20, 7#32⟩, ⟨0x404#20, 7#32⟩] }
    (fun t => t.dataTlb == [⟨0x404#20, 7#32⟩]) = true := by decide

/-- 95_test_vectors.md VP1. -/
theorem test_jmp_short : after (.jmpPc10 0x200#10) base (fun t => t.pc == 0xC00#32) = true := by decide

/-- 95_test_vectors.md VP3. -/
theorem test_jmp_indirect : after (.jmpF32 0xC#4 0x3000#32) (w 0x3000#32 0x2001#32 <| base)
    (fun t => t.pc == 0x2000#32) = true := by decide

/-- 95_test_vectors.md VP7. -/
theorem test_jmpfn : after (.jmpfnPc10 4#10) base (fun t => t.pc == 0x1008#32) = true := by decide

/-- 95_test_vectors.md VP7. -/
theorem test_jmpfy : after (.jmpfyPc10 4#10) (psw 0x10#32 <| base) (fun t => t.pc == 0x1002#32) = true := by decide

/-- 95_test_vectors.md VP7. -/
theorem test_jmptn : after (.jmptnPc10 4#10) (psw 0x10#32 <| base) (fun t => t.pc == 0x1008#32) = true := by decide

/-- 95_test_vectors.md VP8. -/
theorem test_jmpty : after (.jmptyA32 0xF#4 0x2000#32) base (fun t => t.pc == 0x1006#32) = true := by decide

/-- 95_test_vectors.md VP12. -/
theorem test_call_back : after (.callPc10 0x3FE#10) base
    (fun t => word 0x7000#32 t == 0x1002#32 && t.pc == 0xFFC#32 && t.isp == 0x7000#32) = true := by decide

/-- 95_test_vectors.md VP14. -/
theorem test_call_through_its_own_slot : after (.callF32 0xD#4 0#32) base
    (fun t => word 0x7000#32 t == 0x1006#32 && t.pc == 0x1006#32) = true := by decide

/-- 95_test_vectors.md VP19. -/
theorem test_return_short_of_16 : after (.returnS32 0xD#4 0x14#32) (w 0x7014#32 0x2000#32 <| base)
    (fun t => t.pc == 0x2000#32 && t.isp == 0x7010#32) = true := by decide

/-- 95_test_vectors.md VP23. -/
theorem test_return_passes_msp : after (.returnStk8 2#8) (w 0x7FE0#32 0x1002#32 (window 0x7FC0#32 0x7FD0#32))
    (fun t => t.pc == 0x1002#32 && t.sp == 0x7FE0#32 && t.msp == 0x7FE0#32) = true := by decide

/-- 95_test_vectors.md VP24. -/
theorem test_popn : after (.popnStk8 2#8) (window 0x7FC0#32 0x7FD0#32)
    (fun t => t.sp == 0x7FE0#32 && t.msp == 0x7FE0#32 && t.pc == 0x1002#32) = true := by decide

/-- 95_test_vectors.md VP28. -/
theorem test_enter_flushes_a_quad : after (.enterStk8 0xFE#8) (writeCell 0x80E4#32 5#32 (window 0x8000#32 0x80F0#32))
    (fun t => word 0x80E4#32 t == 5#32 && t.msp == 0x80E0#32 && t.sp == 0x7FE0#32 && t.psw == 0xA00#32) = true := by decide

/-- 95_test_vectors.md VP32. -/
theorem test_enter_absolute : after (.enterW32 0xC#4 0x3000#32) (w 0x3000#32 0x6805#32 <| base)
    (fun t => t.isp == 0x6800#32 && t.psw == 0x800#32) = true := by decide

/-- 95_test_vectors.md VP33. -/
theorem test_catch_rounds_up : after (.catchW32 0xD#4 0x28#32) (w 0x800C#32 13#32 (window 0x7FE0#32 0x7FE0#32))
    (fun t => t.msp == 0x8010#32 && readCell 0x800C#32 t == 13#32) = true := by decide

/-- 95_test_vectors.md VP37. -/
theorem test_kcall : after (.kcallImm10 3#10) (psw 0x7600#32 <| base)
    (fun t => word 0x6FF4#32 t == 12#32 && word 0x6FF8#32 t == 0x1002#32 && t.pc == 0x2000#32 && t.psw == 0#32) = true := by decide

/-- 95_test_vectors.md VP40. -/
theorem test_kret : after (.kret) (w 0x7008#32 0x1002#32 <| w 0x700C#32 0x7600#32 <| base)
    (fun t => t.pc == 0x1002#32 && t.psw == 0x7600#32 && t.isp == 0x7010#32 && t.shad == 0x8000#32) = true := by decide

/-- 95_test_vectors.md VP42. -/
theorem test_cret : after (.cret) (cfg 0x40000#32 <| w 0x7000#32 0x7FC5#32 <| w 0x7004#32 0x8000#32 <| w 0x7008#32 0x2001#32 <| w 0x700C#32 0x7600#32 <| w 0x7FC4#32 5#32 base)
    (fun t => t.sp == 0x7FC0#32 && t.msp == 0x8000#32 && t.pc == 0x2000#32 && readCell 0x7FC4#32 t == 5#32) = true := by decide

/-- 46_tagged.md R316. -/
theorem test_tadd_stores_in_psw_last : after (.cpuWide (.taddG16 0xF#4 0x7#4 0x10#16 5#16)) base
    (fun t => t.psw == 0x10#32) = true := by decide

/-- 46_tagged.md R317. -/
theorem test_tsub_stores_in_psw_last : after (.cpuWide (.tsubG16 0xF#4 0x7#4 0xFFF0#16 5#16)) base
    (fun t => t.psw == 0x10#32) = true := by decide

/-- 60_exceptions.md R380 (D24). -/
theorem test_unimplemented_store_bus_error : after (.flushd) { base with busMap := [⟨0x7000, 0x7003, .busError⟩] }
    (fun t => word 0x6FF4#32 t == 10#32 && word 0x6FF8#32 t == 0x1000#32) = true := by decide

/-- 40_arithmetic.md R196. -/
theorem test_div3_by_zero_before_its_store : after (.div3G16 0xF#4 0xD#4 0#16 8#16) { base with busMap := [⟨0x7004, 0x7007, .silent⟩] }
    (fun t => word 0x6FF4#32 t == 1#32 && t.pc == 0x2100#32) = true := by decide

/-- 60_exceptions.md R411. -/
theorem test_add_is_divisible : after (.addG16 0xF#4 0xC#4 1#16 0x3000#16) { base with turns := [⟨[], none, false⟩, ⟨[(0x3003, 9#8)], none, false⟩] }
    (fun t => word 0x3000#32 t == 1#32) = true := by decide

/-- 20_memory.md R102. -/
theorem test_addi_is_not : after (.addiG16 0xF#4 0xC#4 1#16 0x3000#16) { base with turns := [⟨[], none, false⟩, ⟨[(0x3007, 9#8)], none, false⟩] }
    (fun t => word 0x3000#32 t == 1#32 && word 0x3004#32 t == 0#32) = true := by decide

/-- 44_program_control.md R274. -/
theorem test_popn_beyond_its_window : after (.popnStk8 1#8) (window 0x8000#32 0x8110#32)
    (fun t => t.sp == 0x8010#32 && t.msp == 0x8110#32) = true := by decide

/-- 60_exceptions.md R411. -/
theorem test_hreset_ends_an_access : after (.addG16 0xF#4 0xC#4 1#16 0x3000#16) { base with turns := [⟨[], none, false⟩, ⟨[], none, true⟩] }
    (fun t => t.pc == 0#32 && t.shad == 0#32 && word 0x3000#32 t == 0#32) = true := by decide

/-- 60_exceptions.md R411. -/
theorem test_region_holds_whole_words : after (.addG16 0xF#4 0xC#4 1#16 0x3000#16) { base with busMap := [⟨0x3003, 0x3003, .busError⟩] }
    (fun t => word 0x6FF4#32 t == 10#32 && t.pc == 0x2100#32) = true := by decide

/-- 70_reset_and_hazards.md R444. -/
theorem test_kret_keeps_the_shad_hazard : after (.kret) { base with recent := [⟨0x70#32, 0#32, none, some ⟨1#32, 2#32⟩, [], none⟩] }
    (fun t => (t.recent.map fun r => (r.flags, r.shadMove)) == [(0#32, none), (0#32, some ⟨1#32, 2#32⟩)]) = true := by decide

/-- 20_memory.md R78. -/
theorem test_push_in_a_handler : after (.addG16 0xF#4 0xD#4 1#16 8#16) (cfg 0x40000#32 { base with msp := 0x8040#32 })
    (fun t => word 0x7008#32 t == 1#32) = true := by decide

/-- Virtual addressing, with page 3 of segment 1 at 0x00500000. -/
def paged : State :=
  w 0x10004#32 0x20001#32 <| w 0x2000C#32 0x00500001#32 { base with vpEff := true, stb := 0x10000#32 }

/-- 20_memory.md R112, R90: a read with no architectural cause sets R and loads the data TLB. -/
theorem test_speculative_read_walks : (match speculateAt 0x403ABC#32 paged with
    | .ok _ t => word 0x2000C#32 t == 0x00500009#32 && t.dataTlb == [⟨0x403#20, 0x00500009#32⟩] && t.textTlb == []
    | _ => false) = true := by decide

/-- 20_memory.md R91, 60_exceptions.md R377: its bus error is dropped, and one never answered stops the machine. -/
theorem test_speculative_read_on_the_bus :
    (match speculateAt 0x3000#32 { base with busMap := [⟨0x3000, 0x3003, .busError⟩] } with
      | .ok _ _ => true
      | _ => false) = true ∧
    (match speculateAt 0x3000#32 { base with busMap := [⟨0x3000, 0x3003, .silent⟩] } with
      | .halt e => e == .busNeverAnswers
      | _ => false) = true := by decide

/-- 20_memory.md R72, 60_exceptions.md R411: a text read is one of a double word, which HRESET may end. -/
theorem test_text_read_is_a_double_word :
    let s := { base with busMap := [⟨0x3004, 0x3007, .silent⟩] };
    (match endedBy false s (readLine 0x3000#32 s) with
      | .halt e => e == .busNeverAnswers
      | _ => false) = true ∧
    (match endedBy true s (readLine 0x3000#32 s) with
      | .trap t _ => t == .externalReset
      | _ => false) = true := by decide

/-- 20_memory.md R108: where prefetching goes on after direct and predicted branches, and where it stops. -/
theorem test_prefetch_follows_branches :
    flow (.jmptyPc10 4#10) 0x1000#32 0x1002#32 = some 0x1008#32 ∧ flow (.jmptnPc10 4#10) 0x1000#32 0x1002#32 = some 0x1002#32 ∧
    flow (.callF32 0xF#4 0x4000#32) 0x1000#32 0x1006#32 = some 0x4000#32 ∧
    flow (.cpuWide (.jmpF32 0xE#4 0xFFFFFFF0#32)) 0x1000#32 0x1008#32 = some 0xFF0#32 ∧
    flow (.jmpF32 0xC#4 0x4000#32) 0x1000#32 0x1006#32 = none ∧ flow (.returnStk8 1#8) 0x1000#32 0x1002#32 = none ∧
    flow .nop 0x1000#32 0x1002#32 = some 0x1002#32 := by decide

/-- 20_memory.md R108: after an indirect branch the unit waits, and with PM = 0 it does not read the bus. -/
theorem test_prefetch_waits :
    prefetchMany false 9 base = .ok () base ∧
    (match prefetchMany false 1 { base with ahead := some 0x3000#32, busMap := [⟨0x3000, 0x3FFF, .silent⟩] } with
      | .ok _ t => t.ahead == none
      | _ => false) = true := by
  refine ⟨rfl, by decide⟩

/-- VA27, VA32: with positive operands either rounding of DIV and REM gives the same (log 7). -/
theorem test_div_rem : (calcDiv 7#32 100#32).value = some 14#32 ∧ (calcRem 7#32 100#32).value = some 2#32 := by
  unfold calcDiv calcRem quotient
  cases Config.divFloors <;> decide

/-- A word placed where the next step fetches it runs as the first instruction after reset (MOV $5, *$0x1000:W). -/
theorem test_first_instruction : (match step (State.reset.withFetchWord 48 0x1000000586FC) with
    | .next t => t.pc == 6#32 && word 0x1000#32 t == 5#32
    | _ => false) = true := by decide

/-! Witnesses: for every obligation with hypotheses, values that meet them together. -/

/-- An instruction ends with a next state that no event took. -/
def ends (i : Instr) (s : State) : Bool := after i s fun t => t.ended != .event

theorem next_of_ends {i : Instr} {s : State} (h : ends i s = true) : ∃ t, exec i s = .next t ∧ t.ended ≠ .event := by
  unfold ends after at h
  split at h
  · rename_i t ht
    exact ⟨t, ht, by simpa using h⟩
  · cases h

theorem next_of_after {i : Instr} {s : State} {p : State → Bool} (h : after i s p = true) :
    ∃ t, exec i s = .next t ∧ p t = true := by
  unfold after at h
  split at h
  · rename_i t ht
    exact ⟨t, ht, h⟩
  · cases h

/-- D0 keeps the invariant. -/
theorem inv_base : Inv base := by constructor <;> decide

/-- So does it on the stack cache. -/
theorem inv_window : Inv (window 0x8000#32 0x8040#32) := by constructor <;> decide

/-- A handler on the interrupt stack, with the stack cache on and not empty. -/
def handler : State := cfg 0x40000#32 { base with msp := 0x8040#32 }

/-- A nop behind a boundary where nothing else can happen. -/
def quietNop : State := base.setMem (Memory.writeBE base.mem 0x1000#32 4 0x2C022C02#32)

theorem witness_DecodeOfEncode : (Instr.cpuWide (.addG32 0x7#4 0xE#4 0xFFFFFFFF#32 0x80000000#32)).wellFormed = true := by
  decide

theorem witness_EncodeOfDecode :
    decodeParcels [0x2C00#16, 0x2C02#16, 0x1234#16] = .ok (.cpuShort 0x2C02#16, [0x1234#16]) ∧
    6 ≤ [0xC6FC#16, 1#16, 2#16, 3#16, 4#16, 5#16].length := ⟨rfl, by decide⟩

theorem witness_StepKeepsInvariant : Inv quietNop ∧ ∃ t, step quietNop = .next t := by
  refine ⟨by constructor <;> decide, ?_⟩
  have h : (match step quietNop with | .next _ => true | _ => false) = true := by decide
  split at h
  · exact ⟨_, by assumption⟩
  · cases h

theorem witness_StepRunsDecodedInstruction : QuietBoundary quietNop ∧ quietNop.vpEff = false ∧ quietNop.busMap = [] ∧
    ∃ rest, decodeParcels (textAt quietNop.pc 6 quietNop) = .ok (.nop, rest) :=
  ⟨by constructor <;> decide, by decide, by decide, _, rfl⟩

/-- With other masters' writes and bus inputs at that boundary, and no prefetching. -/
theorem witness_ResetPinResets : ∃ (s : State) (p : Pins) (rest : List Pins), s.pins = p :: rest ∧ p.hreset = true ∧
    mayPrefetch s = false :=
  ⟨{ base with pins := [⟨0#3, true, [(5, 1#8)], [⟨[(6, 1#8)], some .busError, false⟩]⟩] }, _, _, rfl, rfl, by decide⟩

/-- A stack operand, a byte destination; and a prefixed division into a register, its divisor not zero. -/
theorem witness_BinaryResult : (∃ f,
    parse (.addG16 0xD#4 0x4#4 8#16 0xB#16) = some (false, .dyadic (.binary .add false) f) ∧ calm base = true ∧
    operandReady false (modeSize false f.src.mode) f.src base = true ∧
    operandReady false (modeSize false f.dst.mode) f.dst base = true ∧ operandWritable false f.dst base = true ∧
    oneRegister false f = true ∧ (BinOp.add.traps = true → operandValue false f.src base ≠ 0#32)) ∧
  ∃ f, parse (.cpuWide (.divG16 0xF#4 0x7#4 7#16 0xC#16)) = some (true, .dyadic (.binary .div false) f) ∧
    operandReady true (modeSize true f.src.mode) f.src base = true ∧
    operandReady true (modeSize true f.dst.mode) f.dst base = true ∧ operandWritable true f.dst base = true ∧
    oneRegister true f = true ∧ (BinOp.div.traps = true → operandValue true f.src base ≠ 0#32) :=
  ⟨⟨_, rfl, by decide, by decide, by decide, by decide, by decide, by decide⟩,
    ⟨_, rfl, by decide, by decide, by decide, by decide, by decide⟩⟩

theorem witness_BinaryToAccumulator : ∃ f, parse (.add3SS 2#5 3#5) = some (false, .dyadic (.binary .add true) f) ∧
    calm (window 0x8000#32 0x8040#32) = true ∧
    operandReady false (modeSize false f.src.mode) f.src (window 0x8000#32 0x8040#32) = true ∧
    operandReady false (modeSize false f.dst.mode) f.dst (window 0x8000#32 0x8040#32) = true ∧
    oneRegister false f = true ∧ aligned (csp (window 0x8000#32 0x8040#32) + 4#32) 4 = true ∧
    firm (csp (window 0x8000#32 0x8040#32) + 4#32) (window 0x8000#32 0x8040#32) = true ∧
    (BinOp.add.traps = true → operandValue false f.src (window 0x8000#32 0x8040#32) ≠ 0#32) :=
  ⟨_, rfl, by decide, by decide, by decide, by decide, by decide, by decide, by decide⟩

theorem witness_InterlockedResult : ∃ f, parse (.addiG16 0xF#4 0xC#4 1#16 0x3000#16) = some (false, .dyadic (.lock .addi) f) ∧
    calm handler = true ∧ operandReady false (modeSize false f.src.mode) f.src handler = true ∧
    operandReady false (modeSize false f.dst.mode) f.dst handler = true ∧ operandWritable false f.dst handler = true ∧
    oneRegister false f = true ∧
    let u := storeOperand false f.dst (LockOp.addi.result (operandValue false f.src handler) (operandValue false f.dst handler))
      handler handler;
    calm u = true ∧ aligned (csp u + 4#32) 4 = true ∧ firm (csp u + 4#32) u = true :=
  ⟨_, rfl, by decide, by decide, by decide, by decide, by decide, by decide, by decide, by decide⟩

theorem witness_CompareResult : ∃ f, parse (.cmphiG16 0xD#4 0xF#4 8#16 5#16) = some (false, .dyadic (.compare .hi) f) ∧
    calm base = true ∧ operandReady false (modeSize false f.src.mode) f.src base = true ∧
    operandReady false (modeSize false f.dst.mode) f.dst base = true ∧ oneRegister false f = true :=
  ⟨_, rfl, by decide, by decide, by decide, by decide⟩

theorem witness_TaggedResult : ∃ f, parse (.taddG16 0xF#4 0xD#4 4#16 8#16) = some (false, .dyadic (.tagged .tadd) f) ∧
    calm base = true ∧ operandReady false (modeSize false f.src.mode) f.src base = true ∧
    operandReady false (modeSize false f.dst.mode) f.dst base = true ∧ operandWritable false f.dst base = true ∧
    oneRegister false f = true :=
  ⟨_, rfl, by decide, by decide, by decide, by decide, by decide⟩

/-- A register to a register. -/
theorem witness_MovResult : ∃ f, parse (.cpuWide (.movG16 0x7#4 0x7#4 3#16 6#16)) = some (true, .dyadic .mov f) ∧
    calm base = true ∧ operandReady true (modeSize true f.src.mode) f.src base = true ∧
    operandReady true (modeSize true f.dst.mode) f.dst base = true ∧ operandWritable true f.dst base = true :=
  ⟨_, rfl, by decide, by decide, by decide, by decide⟩

theorem witness_MovaResult : ∃ f, parse (.movaG16 0xE#4 0xD#4 0xC#16 8#16) = some (false, .dyadic .mova f) ∧
    calm handler = true ∧ wordMode f.src.mode = true ∧ isImmediate f.src = false ∧ isImmediate f.dst = false ∧
    isRegister false f.dst = false ∧ (f.src.mode = 0xE#4 → aligned (stackAddress f.src handler) 4 = true ∧ firm (stackAddress f.src handler) handler = true) ∧
    operandReady false (modeSize false f.dst.mode) f.dst handler = true :=
  ⟨_, rfl, by decide, by decide, by decide, by decide, by decide, by decide, by decide⟩

theorem witness_DqmResult : ∃ f, parse (.dqmG16 0xF#4 0xD#4 0#16 0x10#16) = some (false, .dyadic .dqm f) ∧
    calm base = true ∧ Inv base ∧ dqmWords false f.dst.mode = some 4 ∧ wordMode f.src.mode = true ∧
    operandReady false (4 * 4) f.src base = true ∧ operandReady false (4 * 4) f.dst base = true :=
  ⟨_, rfl, by decide, inv_base, by decide, by decide, by decide, by decide⟩

/-- Each kind: a dyadic behind a prefix, a monadic, a niladic, a trapped niladic. -/
theorem witness_UnimplementedSequenceResult :
    (∃ f, parse (.cpuWide (.unimpThree08 0xF#4 0xD#4 0#16 0#16)) = some (true, .dyadic .unimplemented f) ∧
      legalMode true f.src.mode = true ∧ legalMode true f.dst.mode = true) ∧
    (∃ o n, parse (.flushdceW32 0xE#4 8#32) = some (false, .monadic .unimplemented 0xE#4 o n)) ∧
    wordMode 0xE#4 = true ∧ parse .flushd = some (false, .niladic .unimplemented) ∧
    parse (.trappedNiladic 0#9) = some (false, .niladic .trapped) ∧ calm handler = true ∧
    aligned (csp handler) 4 = true ∧ firm (csp handler) handler = true ∧ aligned (handler.vb + 12#32) 4 = true ∧ aligned (handler.vb + 8#32) 4 = true ∧
    hits (handler.vb + 12#32) handler = false ∧ hits (handler.vb + 8#32) handler = false :=
  ⟨⟨_, rfl, by decide, by decide⟩, ⟨_, _, rfl⟩, by decide, rfl, rfl, by decide, by decide, by decide, by decide,
    by decide, by decide, by decide⟩

theorem witness_JumpResult : (∃ n, parse (.jmpF32 0xD#4 8#32) = some (false, .monadic .jmp 0xD#4 8#32 n)) ∧
    flowReady 0xD#4 8#32 handler = true ∧
    (∃ o n, parse (.jmpfnPc10 0x3FF#10) = some (false, .monadic (.jmpIf false) 0xE#4 o n)) ∧
    (∃ o n, parse (.jmptyA32 0xF#4 0x2001#32) = some (false, .monadic (.jmpIf true) 0xF#4 o n)) :=
  ⟨⟨_, rfl⟩, by decide, ⟨_, _, rfl⟩, ⟨_, _, rfl⟩⟩

theorem witness_CallResult : (∃ n, parse (.callF32 0xD#4 0#32) = some (false, .monadic .call 0xD#4 0#32 n)) ∧
    calm (window 0x8000#32 0x8040#32) = true ∧ wordMode 0xD#4 = true ∧
    flowSound 0xD#4 0#32 (window 0x8000#32 0x8040#32) = true ∧ aligned (csp (window 0x8000#32 0x8040#32)) 4 = true ∧
    firm (csp (window 0x8000#32 0x8040#32)) (window 0x8000#32 0x8040#32) = true :=
  ⟨⟨_, rfl⟩, by decide, by decide, by decide, by decide, by decide⟩

/-- The largest one-parcel offset, past MSP. -/
theorem witness_ReturnResult : (∃ n, parse (.returnStk8 0xFF#8) = some (false, .monadic .ret 0xD#4 4080#32 n)) ∧
    calm (window 0x8000#32 0x8040#32) = true ∧ Inv (window 0x8000#32 0x8040#32) ∧ (4080#32).getLsbD 31 = false ∧
    aligned (csp (window 0x8000#32 0x8040#32) + 4080#32) 4 = true ∧
    firm (csp (window 0x8000#32 0x8040#32) + 4080#32) (window 0x8000#32 0x8040#32) = true :=
  ⟨⟨_, rfl⟩, by decide, inv_window, by decide, by decide, by decide⟩

/-- From a usable window, and past one that is not. -/
theorem witness_PopnResult : (∃ n, parse (.popnS32 0xD#4 0x14#32) = some (false, .monadic .popn 0xD#4 0x14#32 n)) ∧
    Inv base ∧ Inv (window 0x8000#32 0x8110#32) ∧ (0x14#32).getLsbD 31 = false :=
  ⟨⟨_, rfl⟩, inv_base, by constructor <;> decide, by decide⟩

theorem witness_LdraaResult : (∃ n, parse (.ldraaF32 0xC#4 0x400#32) = some (false, .monadic .ldraa 0xC#4 0x400#32 n)) ∧
    calm handler = true ∧ wordMode 0xC#4 = true ∧ flowSound 0xC#4 0x400#32 handler = true ∧
    aligned (csp handler + 4#32) 4 = true ∧ firm (csp handler + 4#32) handler = true :=
  ⟨⟨_, rfl⟩, by decide, by decide, by decide, by decide, by decide⟩

/-- On the interrupt stack, and on SP with an empty window and with a full one. -/
theorem witness_CatchFillsCache :
    (∃ n, parse (.catchW32 0xD#4 0x28#32) = some (false, .monadic .catching 0xD#4 0x28#32 n)) ∧ wordMode 0xD#4 = true ∧
    (calm base = true ∧ Inv base ∧ pswCSP base.psw = false) ∧
    ∀ s ∈ [window 0x7FE0#32 0x7FE0#32, window 0x7FE0#32 0x80E0#32], calm s = true ∧ Inv s ∧ pswCSP s.psw = true ∧
      frameReady 0xD#4 0x28#32 s = true ∧ windowOk s = true ∧ s.sp.toNat + 256 < 4294967296 := by
  refine ⟨⟨_, rfl⟩, by decide, ⟨by decide, inv_base, by decide⟩, ?_⟩
  simp only [List.mem_cons, List.not_mem_nil, or_false, forall_eq_or_imp, forall_eq]
  exact ⟨⟨by decide, by constructor <;> decide, by decide, by decide, by decide, by decide⟩,
    by decide, by constructor <;> decide, by decide, by decide, by decide, by decide⟩

theorem witness_EnterOnInterruptStack :
    (∃ n, parse (.enterStk8 0xFF#8) = some (false, .monadic .enter 0xD#4 0xFFFFFFF0#32 n) ∧
      enterLegal 0xD#4 0xFFFFFFF0#32 n = true) ∧
    calm handler = true ∧ pswCSP handler.psw = false ∧ wordMode 0xD#4 = true ∧ frameReady 0xD#4 0xFFFFFFF0#32 handler = true :=
  ⟨⟨_, rfl, by decide⟩, by decide, by decide, by decide, by decide⟩

theorem witness_EnterFlushesWholeCache :
    (∃ n, parse (.enterW32 0xF#4 0x9000#32) = some (false, .monadic .enter 0xF#4 0x9000#32 n)) ∧
    calm (window 0x8000#32 0x8100#32) = true ∧ Inv (window 0x8000#32 0x8100#32) ∧
    pswCSP (window 0x8000#32 0x8100#32).psw = true ∧ wordMode 0xF#4 = true ∧ (0xF#4 : BitVec 4) ≠ 0xD#4 ∧
    frameReady 0xF#4 0x9000#32 (window 0x8000#32 0x8100#32) = true ∧ windowOk (window 0x8000#32 0x8100#32) = true ∧
    configSC (window 0x8000#32 0x8100#32).configEff = true :=
  ⟨⟨_, rfl⟩, by decide, by constructor <;> decide, by decide, by decide, by decide, by decide, by decide, by decide⟩

/-- One quad is flushed; and the largest one-parcel frame. -/
theorem witness_EnterByStackOffset : (∃ n, parse (.enterStk8 0xFE#8) = some (false, .monadic .enter 0xD#4 0xFFFFFFE0#32 n) ∧
      enterLegal 0xD#4 0xFFFFFFE0#32 n = true) ∧
    (∃ n, parse (.enterStk8 0#8) = some (false, .monadic .enter 0xD#4 0xFFFFF000#32 n) ∧
      enterLegal 0xD#4 0xFFFFF000#32 n = true) ∧
    let s := window 0x8000#32 0x80F0#32;
    calm s = true ∧ Inv s ∧ pswCSP s.psw = true ∧ 0 ≤ (s.sp.toNat : Int) + signed 0xFFFFFFE0#32 ∧
      0 ≤ (s.sp.toNat : Int) + signed 0xFFFFF000#32 ∧ windowOk s = true ∧ configSC s.configEff = true :=
  ⟨⟨_, rfl, by decide⟩, ⟨_, rfl, by decide⟩, by decide, by constructor <;> decide, by decide, by decide, by decide,
    by decide, by decide⟩

theorem witness_KcallResult : (∃ n, parse (.kcallW32 0xD#4 8#32) = some (false, .monadic .kcall 0xD#4 8#32 n)) ∧
    calm handler = true ∧ wordMode 0xD#4 = true ∧ operandReady false 4 (monadicOperand 0xD#4 8#32) handler = true ∧
    frameClear handler.isp handler.vb handler = true ∧ aligned handler.isp 4 = true ∧ aligned handler.vb 4 = true :=
  ⟨⟨_, rfl⟩, by decide, by decide, by decide, by decide, by decide, by decide⟩

theorem witness_KretResult : plain base = true ∧ usable base = true ∧ pswX base.psw = false ∧ aligned base.isp 4 = true ∧
    aligned (base.isp + 8#32) 4 = true ∧ aligned (base.isp + 12#32) 4 = true ∧ hits (base.isp + 8#32) base = false ∧
    hits (base.isp + 12#32) base = false := by decide

/-- The frame asks for a window of 256 bytes on SP. -/
theorem witness_CretResult :
    let s := cfg 0x40000#32 <| w 0x7000#32 0x7F05#32 <| w 0x7004#32 0x8000#32 <| w 0x700C#32 0x7600#32 base;
    plain s = true ∧ usable s = true ∧ pswX s.psw = false ∧ aligned s.isp 4 = true ∧
    (∀ k : Fin 4, aligned (s.isp + BitVec.ofNat 32 (4 * k.val)) 4 = true ∧
      hits (s.isp + BitVec.ofNat 32 (4 * k.val)) s = false) ∧
    pswVP (load 4 (s.isp + 12#32) s &&& pswMask) = false ∧
    (quadAlign (load 4 s.isp s)).toNat ≤ (quadAlign (load 4 (s.isp + 4#32) s)).toNat ∧
    (quadAlign (load 4 (s.isp + 4#32) s)).toNat ≤ (quadAlign (load 4 s.isp s)).toNat + 256 ∧
    hits (s.isp + 8#32) ((s.setSp 0x7F00#32).setMsp 0x8000#32) = false ∧ quadAlign (load 4 s.isp s) = 0x7F00#32 ∧
    pswCSP (load 4 (s.isp + 12#32) s &&& pswMask) = true := by decide

theorem witness_TextFlushResults :
    (∃ n, parse (.flushpbeW32 0xE#4 8#32) = some (false, .monadic .flushpbe 0xE#4 8#32 n)) ∧ wordMode 0xE#4 = true ∧
    handler.vpEff = false ∧ ((0xE#4 : BitVec 4) = 0xE#4 → calm handler = true ∧ aligned (csp handler + 8#32) 4 = true ∧ firm (csp handler + 8#32) handler = true) :=
  ⟨⟨_, rfl⟩, by decide, by decide, by decide⟩

theorem witness_FlushPageEntryResult :
    (∃ n, parse (.flushpteW32 0xE#4 8#32) = some (false, .monadic .flushpte 0xE#4 8#32 n)) ∧ wordMode 0xE#4 = true ∧
    ((0xE#4 : BitVec 4) = 0xE#4 → calm handler = true ∧ aligned (csp handler + 8#32) 4 = true ∧ firm (csp handler + 8#32) handler = true) :=
  ⟨⟨_, rfl⟩, by decide, by decide⟩

/-! Frames. -/

theorem witness_DyadicRegisterFrame : ∃ f t,
    parse (.mulG16 0xF#4 0xD#4 3#16 8#16) = some (false, .dyadic (.binary .mul false) f) ∧
    ((DyOp.binary .mul false).writes = true → isRegister false f.dst = false) ∧
    exec (.mulG16 0xF#4 0xD#4 3#16 8#16) base = .next t ∧ t.ended ≠ .event := by
  obtain ⟨t, h⟩ := next_of_ends (i := .mulG16 0xF#4 0xD#4 3#16 8#16) (s := base) (by decide)
  exact ⟨_, t, rfl, by decide, h⟩

/-- A destination in memory, and one that is a register. -/
theorem witness_DestinationMemoryFrame : base.vpEff = false ∧ usable base = true ∧ base.turns = [] ∧
    (∃ f s1 t a b, parse (.movG16 0xF#4 0x0#4 7#16 0x3001#16) = some (false, .dyadic .mov f) ∧
      openForm false .writes f base = .ok (a, .memory (plainAccess base) b 1 true) s1 ∧
      exec (.movG16 0xF#4 0x0#4 7#16 0x3001#16) base = .next t ∧ t.ended ≠ .event) ∧
    ∃ f s1 t a r, parse (.cpuWide (.orG16 0xF#4 0x7#4 7#16 9#16)) = some (true, .dyadic (.binary .or false) f) ∧
      openForm true .updates f base = .ok (a, .register r) s1 ∧
      exec (.cpuWide (.orG16 0xF#4 0x7#4 7#16 9#16)) base = .next t ∧ t.ended ≠ .event := by
  obtain ⟨t, h⟩ := next_of_ends (i := .movG16 0xF#4 0x0#4 7#16 0x3001#16) (s := base) (by decide)
  obtain ⟨u, h'⟩ := next_of_ends (i := .cpuWide (.orG16 0xF#4 0x7#4 7#16 9#16)) (s := base) (by decide)
  exact ⟨by decide, by decide, by decide, ⟨_, _, t, _, _, rfl, rfl, h⟩, _, _, u, _, _, rfl, rfl, h'⟩

/-- One of each clause: an accumulator store, a comparison, KRET, CATCH. -/
theorem witness_OtherMemoryFrame : base.vpEff = false ∧ usable base = true ∧ base.turns = [] ∧
    usable (window 0x8000#32 0x8000#32) = true ∧
    (∃ t, exec (.add3SS 2#5 3#5) base = .next t ∧ t.ended = .completed) ∧
    (∃ t, exec (.cmpeqSS 2#5 3#5) base = .next t ∧ t.ended = .completed) ∧
    (∃ t, exec .kret base = .next t ∧ t.ended = .completed) ∧
    (∃ t, exec (.catchStk8 3#8) (window 0x8000#32 0x8000#32) = .next t ∧ t.ended = .completed) ∧
    (∃ f, parse (.add3SS 2#5 3#5) = some (false, .dyadic (.binary .add true) f)) ∧
    (∃ f, parse (.cmpeqSS 2#5 3#5) = some (false, .dyadic (.compare .eq) f)) ∧
    parse .kret = some (false, .niladic .kret) ∧
    ∃ m o n, parse (.catchStk8 3#8) = some (false, .monadic .catching m o n) := by
  have key : ∀ i s, after i s (fun t => t.ended == .completed) = true → ∃ t, exec i s = .next t ∧ t.ended = .completed := by
    intro i s h
    obtain ⟨t, h1, h2⟩ := next_of_after h
    exact ⟨t, h1, by simpa using h2⟩
  exact ⟨by decide, by decide, by decide, by decide, key _ _ (by decide), key _ _ (by decide), key _ _ (by decide), key _ _ (by decide), ⟨_, rfl⟩,
    ⟨_, rfl⟩, rfl, ⟨_, _, _, rfl⟩⟩

/-- A destination in memory, and one that is a register. -/
theorem witness_InterlockedMemoryFrame : base.vpEff = false ∧ usable base = true ∧ base.turns = [] ∧
    (∃ f s1 t a b, parse (.andiG16 0xF#4 0xC#4 1#16 0x3000#16) = some (false, .dyadic (.lock .andi) f) ∧
      openForm false .updates f base = .ok (a, .memory (plainAccess base) b 4 true) s1 ∧
      exec (.andiG16 0xF#4 0xC#4 1#16 0x3000#16) base = .next t ∧ t.ended ≠ .event) ∧
    ∃ f s1 t a r, parse (.cpuWide (.oriG16 0xF#4 0x7#4 7#16 9#16)) = some (true, .dyadic (.lock .ori) f) ∧
      openForm true .updates f base = .ok (a, .register r) s1 ∧
      exec (.cpuWide (.oriG16 0xF#4 0x7#4 7#16 9#16)) base = .next t ∧ t.ended ≠ .event ∧ usable t = true := by
  obtain ⟨t, h⟩ := next_of_ends (i := .andiG16 0xF#4 0xC#4 1#16 0x3000#16) (s := base) (by decide)
  obtain ⟨u, h1, h2⟩ := next_of_after (i := .cpuWide (.oriG16 0xF#4 0x7#4 7#16 9#16)) (s := base)
    (p := fun t => t.ended != .event && usable t) (by decide)
  exact ⟨by decide, by decide, by decide, ⟨_, _, t, _, _, rfl, rfl, h⟩, _, _, u, _, _, rfl, rfl, h1, by simp_all⟩

/-- MOVA, DQM and CALL. -/
theorem witness_BlockMemoryFrame : base.vpEff = false ∧ usable base = true ∧ base.turns = [] ∧
    (∃ f t ea s1 b s2, parse (.movaSS 3#5 2#5) = some (false, .dyadic .mova f) ∧ exec (.movaSS 3#5 2#5) base = .next t ∧
      t.ended ≠ .event ∧ effectiveAddress f.src base = .ok ea s1 ∧
      locate false (modeSize false f.dst.mode) f.dst s1 = .ok b s2) ∧
    (∃ f t a s1 acc va sz sg s2, parse (.dqmG16 0xF#4 0xD#4 0#16 0x10#16) = some (false, .dyadic .dqm f) ∧
      exec (.dqmG16 0xF#4 0xD#4 0#16 0x10#16) base = .next t ∧ t.ended ≠ .event ∧ dqmWords false f.dst.mode = some 4 ∧
      locate false (4 * 4) f.src base = .ok a s1 ∧ locate false (4 * 4) f.dst s1 = .ok (.memory acc va sz sg) s2) ∧
    ∃ t m o n, parse (.callPc10 5#10) = some (false, .monadic .call m o n) ∧ exec (.callPc10 5#10) base = .next t ∧
      t.ended ≠ .event := by
  obtain ⟨t, h, h'⟩ := next_of_ends (i := .movaSS 3#5 2#5) (s := base) (by decide)
  obtain ⟨u, k, k'⟩ := next_of_ends (i := .dqmG16 0xF#4 0xD#4 0#16 0x10#16) (s := base) (by decide)
  obtain ⟨v, l, l'⟩ := next_of_ends (i := .callPc10 5#10) (s := base) (by decide)
  exact ⟨by decide, by decide, by decide, ⟨_, t, _, _, _, _, rfl, h, h', rfl, rfl⟩, ⟨_, u, _, _, _, _, _, _, _, rfl, k, k', by decide, rfl, rfl⟩,
    v, _, _, _, rfl, l, l'⟩

/-- At user level an addition, an ENTER and a KCALL. -/
theorem witness_UserLevelKeepsSystemState : pswX (psw 0x7400#32 base).psw = true ∧
    ∀ i ∈ [Instr.addCS 1#5 2#5, .enterStk8 0xFF#8, .kcallImm10 3#10],
      ∃ t, exec i (psw 0x7400#32 base) = .next t ∧ t.ended ≠ .event := by
  refine ⟨by decide, ?_⟩
  simp only [List.mem_cons, List.not_mem_nil, or_false, forall_eq_or_imp, forall_eq]
  exact ⟨next_of_ends (by decide), next_of_ends (by decide), next_of_ends (by decide)⟩

/-! Exceptions. -/

/-- Each kind of illegal mode in turn. -/
theorem witness_IllegalModesTrap :
    (∃ f, parse (.cpuWide (.addG16 0x4#4 0xD#4 8#16 8#16)) = some (true, .dyadic (.binary .add false) f) ∧
      legalMode true f.src.mode = false) ∧
    (∃ f, parse (.dqmG16 0x4#4 0xD#4 8#16 0x10#16) = some (false, .dyadic .dqm f) ∧ wordMode f.src.mode = false) ∧
    (∃ f, parse (.movaG16 0xB#4 0xD#4 8#16 8#16) = some (false, .dyadic .mova f) ∧ wordMode f.src.mode = false) ∧
    (∃ f, parse (.movaG16 0xF#4 0xD#4 8#16 8#16) = some (false, .dyadic .mova f) ∧ isImmediate f.src = true) ∧
    (∃ f, parse (.cpuWide (.movaG16 0x7#4 0x7#4 8#16 8#16)) = some (true, .dyadic .mova f) ∧
      isRegister true f.src = true ∧ isRegister true f.dst = true) ∧
    (∃ f, parse (.movG16 0xD#4 0xF#4 8#16 8#16) = some (false, .dyadic .mov f) ∧ DyOp.mov.writes = true ∧
      isImmediate f.dst = true) ∧
    (∃ m o n, parse (.jmpF32 0xB#4 0#32) = some (false, .monadic .jmp m o n) ∧ wordMode m = false) ∧
    (∃ o n, parse (.jmpfnA32 0xC#4 0#32) = some (false, .monadic (.jmpIf false) 0xC#4 o n)) ∧
    (∃ o n, parse (.returnS32 0xD#4 0x80000000#32) = some (false, .monadic .ret 0xD#4 o n) ∧ o.getLsbD 31 = true) ∧
    (∃ o n, parse (.enterW32 0xD#4 0x7FFFFFFF#32) = some (false, .monadic .enter 0xD#4 o n) ∧ o.getLsbD 31 = false) :=
  ⟨⟨_, rfl, by decide⟩, ⟨_, rfl, by decide⟩, ⟨_, rfl, by decide⟩, ⟨_, rfl, by decide⟩, ⟨_, rfl, by decide, by decide⟩,
    ⟨_, rfl, by decide, by decide⟩, ⟨_, _, _, rfl, by decide⟩, ⟨_, _, rfl⟩,
    ⟨_, _, rfl, by decide⟩, ⟨_, _, rfl, by decide⟩⟩

/-- D0 with a pointer at R8 whose target is off two. -/
def offPointer : State := w 0x7008#32 0x3001#32 base

/-- Register 13 is not there; a half-word at an odd stack offset; a word off four behind a CPU prefix; MOVA's destination
and its pointer; DQM off its block; a jump through a word off four; KCALL's
operand, and its pointer's target; RETURN's word; the words of ENTER and CATCH; a flush's pointer; pointers whose target is
off, of a source, of a destination, of MOVA and of DQM. -/
theorem witness_UnreachableOperandTraps :
    (∃ f, parse (.cpuWide (.movG16 0xF#4 0x7#4 0#16 0xD#16)) = some (true, .dyadic .mov f) ∧
      legalMode true f.src.mode = true ∧ legalMode true f.dst.mode = true ∧ isImmediate f.dst = false ∧
      f.dst.mode = 0x7#4 ∧ Reg.ofField f.dst.field.value = none) ∧
    (∃ f, parse (.divG16 0xF#4 0x6#4 0#16 9#16) = some (false, .dyadic (.binary .div false) f) ∧
      isImmediate f.dst = false ∧ legalMode false f.src.mode = true ∧ legalMode false f.dst.mode = true ∧
      missingRegister false f.src = false ∧ missingRegister false f.dst = false ∧
      staticAligned false (modeSize false f.dst.mode) f.dst base = false) ∧
    (∃ f, parse (.cpuWide (.addG16 0xD#4 0x7#4 6#16 9#16)) = some (true, .dyadic (.binary .add false) f) ∧
      isImmediate f.dst = false ∧ legalMode true f.src.mode = true ∧ legalMode true f.dst.mode = true ∧
      missingRegister true f.src = false ∧ missingRegister true f.dst = false ∧
      staticAligned true (modeSize true f.src.mode) f.src base = false) ∧
    (∃ f, parse (.movaG16 0xD#4 0x6#4 8#16 9#16) = some (false, .dyadic .mova f) ∧ movaLegal false f = true ∧
      staticAligned false (modeSize false f.dst.mode) f.dst base = false) ∧
    (∃ f, parse (.movaG16 0xE#4 0xD#4 6#16 8#16) = some (false, .dyadic .mova f) ∧ movaLegal false f = true ∧
      f.src.mode = 0xE#4 ∧ aligned (stackAddress f.src base) 4 = false) ∧
    (∃ f, parse (.dqmG16 0xF#4 0xD#4 0#16 8#16) = some (false, .dyadic .dqm f) ∧
      dqmWords false f.dst.mode = some 4 ∧ wordMode f.src.mode = true ∧
      staticAligned false (4 * 4) f.dst base = false) ∧
    (∃ n, parse (.jmpF32 0xC#4 0x3002#32) = some (false, .monadic .jmp 0xC#4 0x3002#32 n) ∧ wordMode 0xC#4 = true ∧
      flowAligned 0xC#4 0x3002#32 base = false) ∧
    (∃ n, parse (.kcallW32 0xD#4 2#32) = some (false, .monadic .kcall 0xD#4 2#32 n) ∧ wordMode 0xD#4 = true ∧
      staticAligned false 4 (monadicOperand 0xD#4 2#32) base = false) ∧
    (∃ n, parse (.kcallW32 0xE#4 8#32) = some (false, .monadic .kcall 0xE#4 8#32 n) ∧ wordMode 0xE#4 = true ∧
      calm offPointer = true ∧ aligned (csp offPointer + 8#32) 4 = true ∧ firm (csp offPointer + 8#32) offPointer = true ∧
      aligned (load 4 (csp offPointer + 8#32) offPointer) 4 = false) ∧
    (∃ n, parse (.returnS32 0xD#4 2#32) = some (false, .monadic .ret 0xD#4 2#32 n) ∧ (2#32).getLsbD 31 = false ∧
      aligned (csp base + 2#32) 4 = false) ∧
    (∃ n, parse (.enterW32 0xC#4 0x3002#32) = some (false, .monadic .enter 0xC#4 0x3002#32 n) ∧
      aligned 0x3002#32 4 = false ∧ pswCSP base.psw = false ∧ base.recent.all Recent.harmless = true) ∧
    (∃ n, parse (.catchW32 0xE#4 2#32) = some (false, .monadic .catching 0xE#4 2#32 n) ∧
      let s := window 0x8000#32 0x8000#32;
      aligned (csp s + 2#32) 4 = false ∧ pswCSP s.psw = true ∧ s.sp ≤ s.msp) ∧
    (∃ n, parse (.flushpteW32 0xE#4 2#32) = some (false, .monadic .flushpte 0xE#4 2#32 n) ∧
      aligned (csp base + 2#32) 4 = false) ∧
    (∃ f, parse (.movG16 0xB#4 0xD#4 8#16 8#16) = some (false, .dyadic .mov f) ∧ legalMode false f.src.mode = true ∧
      missingRegister false f.src = false ∧ staticAligned false (modeSize false f.src.mode) f.src offPointer = true ∧
      IndirectOff false (modeSize false f.src.mode) f.src offPointer) ∧
    (∃ f, parse (.addG16 0xF#4 0xE#4 1#16 8#16) = some (false, .dyadic (.binary .add false) f) ∧
      operandReady false (modeSize false f.src.mode) f.src offPointer = true ∧
      staticAligned false (modeSize false f.dst.mode) f.dst offPointer = true ∧
      IndirectOff false (modeSize false f.dst.mode) f.dst offPointer) ∧
    (∃ f, parse (.movaG16 0xD#4 0xE#4 8#16 8#16) = some (false, .dyadic .mova f) ∧ movaLegal false f = true ∧
      staticAligned false (modeSize false f.dst.mode) f.dst offPointer = true ∧
      IndirectOff false (modeSize false f.dst.mode) f.dst offPointer) ∧
    ∃ f, parse (.dqmG16 0xE#4 0xD#4 8#16 0x10#16) = some (false, .dyadic .dqm f) ∧
      dqmWords false f.dst.mode = some 4 ∧ wordMode f.src.mode = true ∧
      staticAligned false (4 * 4) f.src offPointer = true ∧ staticAligned false (4 * 4) f.dst offPointer = true ∧
      IndirectOff false (4 * 4) f.src offPointer :=
  ⟨⟨_, rfl, by decide, by decide, by decide, by decide, by decide⟩,
    ⟨_, rfl, by decide, by decide, by decide, by decide, by decide, by decide⟩,
    ⟨_, rfl, by decide, by decide, by decide, by decide, by decide, by decide⟩, ⟨_, rfl, by decide, by decide⟩,
    ⟨_, rfl, by decide, by decide, by decide⟩, ⟨_, rfl, by decide, by decide, by decide⟩,
    ⟨_, rfl, by decide, by decide⟩, ⟨_, rfl, by decide, by decide⟩, ⟨_, rfl, by decide, by decide, by decide, by decide, by decide⟩,
    ⟨_, rfl, by decide, by decide⟩, ⟨_, rfl, by decide, by decide, by decide⟩, ⟨_, rfl, by decide, by decide, by decide⟩,
    ⟨_, rfl, by decide⟩, ⟨_, rfl, by decide, by decide, by decide, by decide, by decide, by decide⟩,
    ⟨_, rfl, by decide, by decide, by decide, by decide, by decide⟩,
    ⟨_, rfl, by decide, by decide, by decide, by decide, by decide⟩,
    _, rfl, by decide, by decide, by decide, by decide, by decide, by decide, by decide⟩

theorem witness_ZeroDivisorTraps :
    (∃ f, parse (.udivG16 0xF#4 0xD#4 0#16 8#16) = some (false, .dyadic (.binary .udiv false) f) ∧
      BinOp.udiv.traps = true ∧ calm base = true ∧ operandReady false (modeSize false f.src.mode) f.src base = true ∧
      operandReady false (modeSize false f.dst.mode) f.dst base = true ∧ operandWritable false f.dst base = true ∧
      oneRegister false f = true ∧ operandValue false f.src base = 0#32) ∧
    ∃ f, parse (.div3G16 0xF#4 0xD#4 0#16 8#16) = some (false, .dyadic (.binary .div true) f) ∧
      aligned (csp base + 4#32) 4 = true ∧ firm (csp base + 4#32) base = true ∧ operandValue false f.src base = 0#32 :=
  ⟨⟨_, rfl, by decide, by decide, by decide, by decide, by decide, by decide, by decide⟩, ⟨_, rfl, by decide, by decide, by decide⟩⟩

theorem witness_UserRegisterWriteTraps :
    let s := psw 0x400#32 base;
    pswX s.psw = true ∧ ∃ f, parse (.cpuWide (.addG16 0xF#4 0x7#4 1#16 7#16)) = some (true, .dyadic (.binary .add false) f) ∧
      (DyOp.binary .add false).writes = true ∧ calm s = true ∧
      operandReady true (modeSize true f.src.mode) f.src s = true ∧ f.dst.mode = 0x7#4 ∧
      (Reg.ofField f.dst.field.value).isSome = true ∧ oneRegister true f = true :=
  ⟨by decide, _, rfl, by decide, by decide, by decide, by decide, by decide, by decide⟩

/-- Two registers read; the largest refused offset; ENTER and CATCH with MSP just below SP; a silent address, on the map and
as an input. -/
theorem witness_NamedStops :
    (∃ f, parse (.cpuWide (.addG16 0x7#4 0x7#4 3#16 1#16)) = some (true, .dyadic (.binary .add false) f) ∧
      f.src.mode = 0x7#4 ∧ f.dst.mode = 0x7#4 ∧ (Reg.ofField f.src.field.value).isSome = true ∧
      (Reg.ofField f.dst.field.value).isSome = true) ∧
    (parse (.enterW32 0xD#4 0xFFFFFF00#32) = some (false, .monadic .enter 0xD#4 0xFFFFFF00#32 3) ∧
      (0xFFFFFF00#32).getLsbD 31 = true ∧ -256 ≤ signed 0xFFFFFF00#32) ∧
    (let s := window 0x8000#32 0x7FF0#32;
      pswCSP s.psw = true ∧ s.msp < s.sp ∧ enterLegal 0xD#4 0xFFFFFFF0#32 1 = true ∧
      parse (.enterStk8 0xFF#8) = some (false, .monadic .enter 0xD#4 0xFFFFFFF0#32 1) ∧
      parse (.catchStk8 1#8) = some (false, .monadic .catching 0xD#4 0x10#32 1)) ∧
    (∀ s ∈ [{ base with busMap := [⟨0x3000, 0x3003, .silent⟩] }, { base with turns := [⟨[], some .silent, false⟩] }],
      (∃ n, parse (.jmpF32 0xC#4 0x3000#32) = some (false, .monadic .jmp 0xC#4 0x3000#32 n)) ∧ s.vpEff = false ∧
      configSC s.configEff = false ∧ mayPrefetch s = false ∧ aligned 0x3000#32 4 = true ∧ (busTurn false 0x3000#32 s).1 = some .silent) := by
  refine ⟨⟨_, rfl, by decide, by decide, by decide, by decide⟩, ⟨rfl, by decide, by decide⟩,
    ⟨by decide, by decide, by decide, rfl, rfl⟩, ?_⟩
  simp only [List.mem_cons, List.not_mem_nil, or_false, forall_eq_or_imp, forall_eq]
  exact ⟨⟨⟨_, rfl⟩, by decide, by decide, by decide, by decide, by decide⟩, ⟨_, rfl⟩, by decide, by decide, by decide,
    by decide, by decide⟩

/-- A bus error on the map for a read and for stores; and, with a report waiting: a trace and an NMI that are due, a fetch
that fails, an ADDI, and an instruction that has ended in an event. -/
theorem witness_BusErrorOutcomes :
    (let s := { base with busMap := [⟨0x3000, 0x7FFF, .busError⟩], writeFaults := 1, tracePending := true };
      (∃ n, parse (.jmpF32 0xC#4 0x3000#32) = some (false, .monadic .jmp 0xC#4 0x3000#32 n)) ∧ s.vpEff = false ∧
      configSC s.configEff = false ∧ mayPrefetch s = false ∧ aligned 0x3000#32 4 = true ∧ busTurn false 0x3000#32 s = (some .busError, s) ∧
      aligned (csp s) 4 = true ∧ busTurn false (csp s) s = (some .busError, s) ∧
      pendingInterrupt 7#3 s = none ∧ s.writeFaults ≠ 0 ∧ s.tracePending = true ∧
      (pendingInterrupt 0#3 s).isSome = true) ∧
    (∃ t u, fetchDecode { base with busMap := [⟨0x1000, 0x1003, .busError⟩], writeFaults := 1 } = .trap t u ∧
      t ≠ .externalReset ∧ u.writeFaults ≠ 0) ∧
    (busTurn false 0x3000#32 { base with turns := [⟨[], none, true⟩] } = (none, base)) ∧
    (∃ u, fetchDecode (w 0x1000#32 0x83FC0001#32 <| w 0x1004#32 0x30000000#32 { base with writeFaults := 1 }) =
      .ok (.addiG16 0xF#4 0xC#4 1#16 0x3000#16) u ∧ serialises (.addiG16 0xF#4 0xC#4 1#16 0x3000#16) = true ∧
      u.writeFaults ≠ 0) ∧
    (let s := { base with writeFaults := 1 };
      State.reset.ended = .event ∧ hresetEnded s State.reset = false ∧ s.writeFaults ≠ 0 ∧ State.reset.writeFaults ≤ s.writeFaults) :=
  ⟨⟨⟨_, rfl⟩, by decide, by decide, by decide, by decide, rfl, by decide, rfl, by decide, by decide, by decide, by decide⟩,
    ⟨_, _, rfl, by decide, fun h => by cases h⟩, rfl, ⟨_, rfl, by decide, fun h => by cases h⟩, by decide, by decide, by decide, by decide⟩

theorem witness_ExceptionSequenceSaves : Trap.zeroDivide ≠ .internalReset ∧ Trap.zeroDivide ≠ .externalReset ∧ plain base = true ∧
    let u := restoreCsp (recordFault .zeroDivide base);
    frameClear u.isp (base.vb + 4#32) u = true ∧ aligned u.isp 4 = true ∧ aligned (base.vb + 4#32) 4 = true := by decide

theorem witness_InterruptSequenceSaves : plain base = true ∧
    let u := restoreCsp base;
    frameClear u.isp 0x41C#32 u = true ∧ aligned u.isp 4 = true ∧ aligned 0x41C#32 4 = true := by decide

/-- Each clause, at the levels where it begins to hold. -/
theorem witness_InterruptAcceptance :
    ((State.reset.setNmiArmed false).nmiArmed = false) ∧ base.nmiArmed = true ∧
    ((6#3).toNat < (pswIPL (psw 0x7000#32 base).psw).toNat ∧ base.t1Pending = false ∧ base.t2Pending = false) ∧
    (let s := cfg 0x01000000#32 { psw 0x2000#32 base with t1Pending := true };
      s.nmiArmed = true ∧ 1 < (pswIPL s.psw).toNat ∧ s.t1Pending = true ∧ configT1IE s.configEff = true) ∧
    (let s := cfg 0x80000000#32 { psw 0x2000#32 base with t1Pending := true, t2Pending := true };
      s.nmiArmed = true ∧ 1 < (pswIPL s.psw).toNat ∧ configT1IE s.configEff = false ∧ s.t2Pending = true ∧
        configT2IE s.configEff = true) ∧
    (1 ≤ (1#3 : BitVec 3).toNat ∧ (pswIPL (psw 0x1000#32 base).psw).toNat ≤ (1#3 : BitVec 3).toNat ∧
      (pswIPL (psw 0x1000#32 base).psw).toNat ≤ 1) ∧
    (let s := { psw 0x5000#32 base with t1Pending := true };
      s.nmiArmed = true ∧ (pswIPL s.psw).toNat ≤ (5#3 : BitVec 3).toNat ∧ configT1IE s.configEff = false ∧
        s.t2Pending = false) := by decide

/-- VX2: the interrupt stack in an invalid segment; a bus error in the frame, and one at the vector. -/
theorem witness_FailedSequenceResets :
    (let s := { psw 0x17600#32 base with isp := 0xC00000#32 };
      let u := restoreCsp (recordFault .zeroDivide s);
      Trap.zeroDivide ≠ .internalReset ∧ Trap.zeroDivide ≠ .externalReset ∧ configSC s.configEff = false ∧ s.turns = [] ∧
        mayPrefetch s = false ∧
        Unreachable (u.isp - 12#32) s ∧ Unreachable ((restoreCsp s).isp - 8#32) s ∧ Unreachable (s.isp - 12#32) s) ∧
    (∃ n, parse (.kcallW32 0xF#4 3#32) = some (false, .monadic .kcall 0xF#4 3#32 n)) ∧
    (let s := { base with busMap := [⟨0x6FF0, 0x700F, .busError⟩] };
      pswX s.psw = false ∧ Unreachable (s.isp + 8#32) s ∧ Unreachable s.isp s ∧ Unreachable (s.isp - 12#32) s) ∧
    (let s := { base with busMap := [⟨0x400, 0x4FF, .busError⟩] };
      let u := restoreCsp (recordFault .zeroDivide s);
      s.vpEff = false ∧ aligned u.isp 4 = true ∧
        (∀ k : Fin 4, k ≠ 0 → busAnswer s.busMap (u.isp - BitVec.ofNat 32 (4 * k.val)) = .ram) ∧
        Unreachable (s.vb + 4#32) s ∧ Unreachable 0x41C#32 s ∧ Unreachable s.vb s ∧ aligned s.isp 4 = true) := by
  unfold Unreachable
  exact ⟨by decide, ⟨_, rfl⟩, by decide, by decide⟩

/-! Memory, translation, fetches, timers, trace. -/

/-- The last byte of memory, and the byte below it. -/
theorem witness_LoadAfterStore : aligned 0xFFFFFFFF#32 1 = true ∧ aligned 0xFFFFFFFC#32 2 = true ∧ Inv base ∧
    usable base = true ∧ (0xFFFFFFFC#32).toNat + 2 ≤ (0xFFFFFFFF#32).toNat :=
  ⟨by decide, by decide, inv_base, by decide, by decide⟩

/-- The tables of 95_test_vectors.md 2.11: an invalid segment, a page that is not writable, one that is. -/
def tables (pte : Word) : State :=
  w 0x100004#32 0x200001#32 <| w 0x20000C#32 pte { psw 0x10000#32 base with stb := 0x100000#32 }

theorem witness_PageWalk :
    (∀ s ∈ [tables 0x500005#32, tables 0x500007#32], s.vpEff = true ∧ ramBus s = true ∧
      findNpsr (segmentOf 0x403ABC#32) (npsrOf .write s) = none ∧ findTlb (pageOf 0x403ABC#32) (tlbOf .write s) = none ∧
      (tlbOf .write s).length < 32) ∧
    (let s := tables 0x500007#32;
      entryValid (Memory.readBE s.mem (steAddr s.stb 0xC00000#32) 4) = false) ∧
    (let s := tables 0x500005#32;
      let ste := Memory.readBE s.mem (steAddr s.stb 0x403ABC#32) 4;
      entryValid ste = true ∧ entryNonpaged ste = false ∧
        permitted .write false (Memory.readBE s.mem (pteAddr ste 0x403ABC#32) 4) = false) ∧
    (let s := tables 0x500007#32;
      let ste := Memory.readBE s.mem (steAddr s.stb 0x403ABC#32) 4;
      let pte := Memory.readBE s.mem (pteAddr ste 0x403ABC#32) 4;
      entryValid ste = true ∧ entryNonpaged ste = false ∧ entryValid pte = true ∧ permitted .write false pte = true) ∧
    (let s := w 0x100008#32 0x0340F00B#32 (tables 0#32);
      ramBus s = true ∧ findNpsr (segmentOf 0x80F345#32) (npsrOf .read s) = none ∧
        findTlb (pageOf 0x80F345#32) (tlbOf .read s) = none ∧
        entryValid (Memory.readBE s.mem (steAddr s.stb 0x80F345#32) 4) = true ∧
        entryNonpaged (Memory.readBE s.mem (steAddr s.stb 0x80F345#32) 4) = true) := by decide

/-- A modified page in the data TLB, as the tables say and where they no longer do; and a segment register, at its bound. -/
theorem witness_CachedTranslation :
    (∀ s ∈ [{ tables 0x50001F#32 with dataTlb := [⟨0x403#20, 0x50001F#32⟩] },
        { tables 0#32 with dataTlb := [⟨0x403#20, 0x50001F#32⟩] }],
      s.vpEff = true ∧ findNpsr (segmentOf 0x403ABC#32) (npsrOf .write s) = none ∧
        findTlb (pageOf 0x403ABC#32) (tlbOf .write s) = some ⟨0x403#20, 0x50001F#32⟩ ∧
        entryModified 0x50001F#32 = true ∧ s.turns = []) ∧
    tableMapping 0x403ABC#32 (tables 0x50001F#32) = some (.page 0x50001F#32) ∧
    (let s := w 0x100008#32 0x0340F00B#32 { tables 0#32 with dataNpsr := some ⟨2#10, 0x0340F00B#32⟩ };
      s.vpEff = true ∧ findNpsr (segmentOf 0x80F345#32) (npsrOf .read s) = some ⟨2#10, 0x0340F00B#32⟩ ∧
        findTlb (pageOf 0x80F345#32) (tlbOf .read s) = none ∧
        tableMapping 0x80F345#32 s = some (.segment 0x0340F00B#32)) := by decide

theorem witness_RegisterWriteEffects : base.recent.all Recent.harmless = true ∧
    ({ base with recent := [quiet base] }).recent.all Recent.harmless = true := by decide

/-- With nothing earlier in the caches, and with the caches disabled and something in them. -/
theorem witness_FetchSuppliesMemoryOrStale :
    (let s := { cfg 0x00180000#32 base with textMaps := [⟨1#20, 1#20⟩], pfbQuads := [0x1000#32] };
      s.vpEff = false ∧ ramBus s = true ∧ (∀ m ∈ s.textMaps, m.frame = m.page) ∧ s.pfbStale = [] ∧ s.icStale = [] ∧
        icValues 0x1000#32 s = [0#16]) ∧
    (let s := { base with textMaps := [⟨1#20, 1#20⟩], icStale := [⟨0x1000#32, 1#16⟩], pfbStale := [⟨0x1000#32, 1#16⟩] };
      s.vpEff = false ∧ ramBus s = true ∧ (∀ m ∈ s.textMaps, m.frame = m.page) ∧ configPBE s.configEff = false ∧
        configICE s.configEff = false) := by decide

/-- A completed conditional jump, with RAM everywhere and where reads show; and the prefetch unit at work. -/
theorem witness_SpeculativeReadsLeaveRegisters :
    let d : Done := ⟨parse (.jmpfyPc10 4#10), false⟩;
    let s := { base with ended := .completed };
    d.predicts s = true ∧ s.vpEff = false ∧ ramBus s = true ∧ s.turns = [] ∧ d.predicts { paged with ended := .completed } =
      true ∧ readsShow { paged with ended := .completed } = true ∧ mayPrefetch (cfg 0x200000#32 base) = true := by decide

/-- Both timers counting instructions, with the counter at its top (VX6); and an instruction that writes each of them. -/
theorem witness_TimersCountInstructions :
    let s := { cfg 0x83400000#32 base with timer1 := 0xFFFFFFFF#32, ended := .completed };
    let d : Done := ⟨parse .nop, false⟩
    d.folded = false ∧ configT1K s.configEff = false ∧ configT2K s.configEff = false ∧ configT1EV s.configEff = true ∧
      configT2EV s.configEff = 1#5 ∧ d.wrote .timer1 s = false ∧ d.wrote .timer2 s = false ∧
      (Done.mk (parse (.cpuWide (.movG16 0xF#4 0x7#4 0#16 0xB#16))) false).wrote .timer1 s = true ∧
      (Done.mk (parse (.cpuWide (.movG16 0xF#4 0x7#4 0#16 0xC#16))) false).wrote .timer2 s = true ∧
      (∃ f, (Done.mk (parse (.cpuWide (.taddG16 0xF#4 0x7#4 1#16 0xB#16))) false).view =
        some (true, .dyadic (.tagged .tadd) f)) ∧ (psw 0x10#32 s).psw.getLsbD flagF = true ∧
      (Done.mk (parse (.cpuWide (.taddG16 0xF#4 0x7#4 1#16 0xB#16))) false).wrote .timer1 (psw 0x10#32 s) = false ∧
      (Done.mk (parse (.cpuWide (.taddG16 0xF#4 0x7#4 4#16 0xB#16))) false).wrote .timer1 s = true := by
  refine ⟨by decide, by decide, by decide, by decide, by decide, by decide, by decide, by decide, by decide, ⟨_, rfl⟩,
    by decide, by decide, by decide⟩

/-- VX8: NOP under TI; and a trace that is due. -/
theorem witness_TraceFollowsInstruction :
    traced ⟨some (false, .niladic .nop), false⟩ (psw 0x80#32 base) (completed 0x1002#32 (quiet base) (psw 0x80#32 base)) =
      true ∧
    (let s := { base with tracePending := true };
      (pendingInterrupt 7#3 s).isNone = true ∧ s.writeFaults = 0 ∧ s.tracePending = true) := by decide

end Sys2Proof.Tests
end

section
/-! PROOF. NOP, TESTC and TESTV (spec/47_other.md R327 to R329). None of the three reads memory or an operand, so each
is its completed state from every state; what is left to say is which bits of PSW a test moves. -/

namespace Sys2Proof.Machine

/-! Bits of PSW -/

/-- A bit of a word in which one bit was put. -/
theorem getLsbD_putBit (w : Word) {i : Nat} (hi : i < 32) (b : Bool) (k : Nat) :
    (putBit w i b).getLsbD k = if k = i then b else w.getLsbD k := by
  have hone : (1#32 <<< i).getLsbD k = decide (k = i) := by
    rw [← BitVec.twoPow_eq, BitVec.getLsbD_twoPow]
    simp [hi, eq_comm]
  cases b
  · simp only [putBit, Bool.false_eq_true, if_false, BitVec.getLsbD_and, BitVec.getLsbD_not, hone]
    by_cases hk : k = i
    · simp [hk]
    · simpa [hk] using BitVec.lt_of_getLsbD
  · simp only [putBit, if_true, BitVec.getLsbD_or, hone]
    by_cases hk : k = i <;> simp [hk]

/-- PSW after the flag at bit `i` was moved to F. -/
def testedPsw (i : Nat) (p : Word) : Word := putBit (putBit p flagF (p.getLsbD i)) i false

theorem testedPsw_flagF {i : Nat} (hi : i < 32) (hF : i ≠ flagF) (p : Word) :
    (testedPsw i p).getLsbD flagF = p.getLsbD i := by
  rw [testedPsw, getLsbD_putBit _ hi, if_neg hF.symm, getLsbD_putBit _ (by decide), if_pos rfl]

theorem testedPsw_tested {i : Nat} (hi : i < 32) (p : Word) : (testedPsw i p).getLsbD i = false := by
  rw [testedPsw, getLsbD_putBit _ hi, if_pos rfl]

theorem testedPsw_other {i k : Nat} (hi : i < 32) (p : Word) (hF : k ≠ flagF) (hk : k ≠ i) :
    (testedPsw i p).getLsbD k = p.getLsbD k := by
  rw [testedPsw, getLsbD_putBit _ hi, if_neg hk, getLsbD_putBit _ (by decide), if_neg hF]

/-! The completed state -/

@[simp] theorem completed_pc (t : Word) (r : Recent) (s : State) : (completed t r s).pc = textAlign t := rfl

@[simp] theorem completed_ended (t : Word) (r : Recent) (s : State) : (completed t r s).ended = .completed := rfl

/-- An instruction that ends in its completed state is one for the timers (R397). -/
theorem Done.completed_completed {d : Done} (hd : d.view.isSome = true) (t : Word) (r : Recent) (s : State) :
    d.completed (Machine.completed t r s) = true := by
  simp [Done.completed, hd]

/-- When an instruction that ends in its completed state is traced (R402, R403). -/
theorem traced_completed {d : Done} {px : Bool} {v : View} (hd : d.view = some (px, v)) (t : Word) (r : Recent)
    (s0 s : State) : traced d s0 (completed t r s) =
      (!untraceable v && (pswTI s0.psw || pswTB s0.psw && endsBlock v)) := by
  simp only [traced, hd, completed_ended]
  cases untraceable v
  · cases pswTI s0.psw <;> simp
  · simp

/-! The three instructions -/

theorem exec_nop (s : State) : exec .nop s = .next (completed (s.pc + 2#32) (quiet s) s) := by
  rw [exec_of_parse s (show parse .nop = some (false, .niladic .nop) from rfl)]
  exact congrArg settle (retire_eq _ _ s)

theorem settle_runTest (i : Nat) (s : State) : ∃ r, settle (runTest i s) =
    .next (completed (s.pc + 2#32) r (s.setPsw (testedPsw i s.psw))) :=
  ⟨_, congrArg settle (retire_eq _ _ _)⟩

theorem exec_testc (s : State) : exec .testc s = settle (runTest flagC s) :=
  exec_of_parse s (show parse .testc = some (false, .niladic .testc) from rfl)

theorem exec_testv (s : State) : exec .testv s = settle (runTest flagV s) :=
  exec_of_parse s (show parse .testv = some (false, .niladic .testv) from rfl)

/-! The obligations -/

/-- Settles O30: NOP is its completed state with a record that causes no hazard; it neither escapes tracing nor ends a
block, so only TI traces it. -/
theorem nopOnlyAdvancesPc : Obligations.NopOnlyAdvancesPc := by
  intro s
  refine ⟨quiet s, exec_nop s, rfl, Done.completed_completed rfl _ _ s, ?_, fun hpc => ?_⟩
  · rw [traced_completed (px := false) (v := .niladic .nop) rfl]
    simp [untraceable, endsBlock]
  · rw [completed_pc, hpc]
    decide

/-- Settles O31, by the bits of `testedPsw` for C. -/
theorem testCarryMovesCarryToFlag : Obligations.TestCarryMovesCarryToFlag := by
  intro s
  have hC : flagC < 32 := by decide
  obtain ⟨r, hr⟩ := settle_runTest flagC s
  refine ⟨r, testedPsw flagC s.psw, (exec_testc s).trans hr, testedPsw_flagF hC (by decide) _, testedPsw_tested hC _,
    fun k => testedPsw_other hC _, fun h => ?_, fun h => ?_⟩
  · rw [h]; decide
  · rw [h]; decide

/-- Settles O32, by the bits of `testedPsw` for V. -/
theorem testOverflowMovesOverflowToFlag : Obligations.TestOverflowMovesOverflowToFlag := by
  intro s
  have hV : flagV < 32 := by decide
  obtain ⟨r, hr⟩ := settle_runTest flagV s
  refine ⟨r, testedPsw flagV s.psw, (exec_testv s).trans hr, testedPsw_flagF hV (by decide) _, testedPsw_tested hV _,
    fun k => testedPsw_other hV _, fun h => ?_, fun h => ?_⟩
  · rw [h]; decide
  · rw [h]; decide

end Sys2Proof.Machine
end

section
/-! PROOF. Every step keeps the invariant: the fetch, the boundary's events, the timers and the reads of a mispredicted
path keep it, and each branch of `step` is one of them after another. -/

namespace Sys2Proof.Machine

/-! The fetch -/

theorem Inv.keepStale {s : State} (h : Inv s) (a : Word) (v : Parcel) : Inv (keepStale a v s) := by
  unfold Machine.keepStale
  split
  · exact h.setIcStale _
  · exact h

theorem Inv.parcelAt {s : State} (h : Inv s) (va : Word) (m : Mapping) (l : Option TextLine) :
    (parcelAt va m l s).Leaves Inv := by
  have hh := Inv.textReads.heldParcel (m.address va) h
  unfold Machine.parcelAt
  dsimp only
  split
  · exact Inv.textReads.noteText _ _ (hh.keepStale _ _)
  · exact (Inv.textReads.busParcel _ _ _ hh).bind fun _ _ h => Inv.textReads.noteText _ _ h

theorem Inv.fetchParcel {s : State} (h : Inv s) (va : Word) (l : Option TextLine) : (fetchParcel va l s).Leaves Inv :=
  (h.readAhead _).bind fun _ _ h => (h.resolve _ _ _ _).bind fun _ _ h => h.parcelAt _ _ _

theorem Inv.fetchDecode {s : State} (h : Inv s) : (fetchDecode s).Leaves Inv := by
  have hf : (fetchInstruction s).Leaves Inv :=
    fetchAt_leaves (fun _ v h => h.setFree v) (fun va l _ h => h.fetchParcel va l) s.pc h
  refine hf.bind fun ps u h => ?_
  split
  · exact h
  · trivial

/-! The boundary -/

theorem Inv.nextPins {s : State} (h : Inv s) : Inv (nextPins s).2 := by
  unfold Machine.nextPins
  split
  · exact h.setTurns _
  · exact (h.setPins _).setTurns _

theorem Inv.armNmi {s : State} (h : Inv s) (p : Pins) : Inv (armNmi p s) := by
  unfold Machine.armNmi
  split
  · exact h
  · exact h.setNmiArmed _

theorem Inv.applyWrites {s : State} (h : Inv s) : Inv (applyWrites s) := by
  have hc := (h.drawMix 0xFFFFFFFF#32 s.configEff s.config).setConfigEff
    (drawMix_mask 0xFFFFFFFF#32 _ _ configMask s h.configEff h.config)
  unfold Machine.applyWrites
  dsimp only
  split
  · exact hc
  · split
    · exact hc.drawBit.setVpEff _
    · exact hc.drawBit

theorem Inv.boundary {s : State} (h : Inv s) (p : Pins) : (boundary p s).Leaves Inv :=
  ((Inv.textReads.prefetch _ h).onTrap fun _ h => Inv.otherMasters _ h).bind fun _ _ h =>
    (Inv.textReads.prefetch _ (Inv.otherMasters _ h)).bind fun _ _ h => (h.armNmi p).applyWrites

theorem Inv.pendingInterrupt {s u : State} (h : Inv s) {il : BitVec 3} {off : Word}
    (hp : pendingInterrupt il s = some (off, u)) : Inv u := by
  unfold Machine.pendingInterrupt at hp
  split at hp
  · cases hp
  split at hp
  · cases hp; exact h.setNmiArmed _
  split at hp
  · cases hp; exact h
  split at hp
  · cases hp; exact h.setT1Pending _
  split at hp
  · cases hp; exact h.setT2Pending _
  · cases hp

/-- What holds of the states a search for a folded jump leaves: the boundary's, and the jump's if there is one. -/
def FoldKeeps (P : State → Prop) (r : Option (Instr × State) × State) : Prop :=
  P r.2 ∧ ∀ i u, r.1 = some (i, u) → P u

theorem FoldKeeps.none {P : State → Prop} {s : State} (h : P s) : FoldKeeps P (none, s) :=
  ⟨h, fun _ _ e => nomatch e⟩

theorem FoldKeeps.some {P : State → Prop} {s : State} (h : P s) (i : Instr) : FoldKeeps P (some (i, s), s) :=
  ⟨h, fun _ _ e => (Prod.mk.inj (Option.some.inj e)).2 ▸ h⟩

theorem Inv.foldedJump {s : State} (h : Inv s) : FoldKeeps Inv (foldedJump s) := by
  have hf := h.fetchDecode
  have hn : ∀ k, FoldKeeps Inv (none, s.setFree k) := fun k => .none (h.setFree k)
  unfold Machine.foldedJump
  split
  · exact .none h
  generalize Machine.fetchDecode s = r at hf
  cases r with
  | trap t u => exact hn _
  | halt e => exact .none h
  | refuse e => exact .none h
  | ok i t =>
    have hd : Inv (Machine.drawBit t).2 := Inv.drawBit hf
    dsimp only
    generalize Machine.drawBit t = d at hd
    obtain ⟨b, t'⟩ := d
    split
    · split
      · cases b with
        | true => exact .some hd i
        | false => exact hn _
      · exact hn _
    · exact hn _

theorem Inv.reportsWrite {s : State} (h : Inv s) (forced : Bool) : Inv (reportsWrite forced s).2 := by
  unfold Machine.reportsWrite
  split
  · exact h
  split
  · exact h
  · exact h.drawBit

/-! What follows an instruction -/

theorem Inv.gateOpen {s : State} (h : Inv s) (k : Bool) (s0 : State) : Inv (gateOpen k s0 s).2 := by
  unfold Machine.gateOpen
  split
  · exact h
  split
  · exact h
  · exact h.drawBit

theorem Inv.eventCount {s : State} (h : Inv s) (ev : Counted) (d : Done) : Inv (eventCount ev d s).2 := by
  cases ev with
  | cycles => exact h.drawWord
  | instructions => exact h
  | nothing => exact h
  | unlisted => exact h.drawWord

theorem Inv.countedEarly {s : State} (h : Inv s) (wrote : Bool) (n : Nat) : Inv (countedEarly wrote n s).2 := by
  unfold Machine.countedEarly
  split
  · exact h.drawBelow _
  · exact h

theorem Inv.advanceTimer1 {s : State} (h : Inv s) (d : Done) (s0 : State) : Inv (advanceTimer1 d s0 s) := by
  have hg := h.gateOpen (configT1K s.configEff) s0
  unfold Machine.advanceTimer1
  dsimp only
  split
  · have hn := (hg.eventCount (timer1Event (Machine.gateOpen (configT1K s.configEff) s0 s).2) d).countedEarly
    split
    · exact ((hn _ _).setT1Pending _).setTimer1 _
    · exact (hn _ _).setTimer1 _
  · exact hg

theorem Inv.advanceTimer2 {s : State} (h : Inv s) (d : Done) (s0 : State) : Inv (advanceTimer2 d s0 s) := by
  have hg := h.gateOpen (configT2K s.configEff) s0
  unfold Machine.advanceTimer2
  dsimp only
  split
  · have hn := (hg.eventCount (timer2Event (Machine.gateOpen (configT2K s.configEff) s0 s).2) d).countedEarly
    split
    · exact ((hn _ _).setT2Pending _).setTimer2 _
    · exact (hn _ _).setTimer2 _
  · exact hg

theorem Inv.afterStep {s : State} (h : Inv s) (d : Done) (s0 : State) : Inv (afterStep d s0 s) := by
  unfold Machine.afterStep
  dsimp only
  split
  · exact (((h.setTracePending _).setFoldable _).advanceTimer1 _ _).advanceTimer2 _ _
  · exact ((h.setFoldable _).advanceTimer1 _ _).advanceTimer2 _ _

theorem Inv.speculateAt {s : State} (h : Inv s) (va : Word) : (speculateAt va s).Leaves Inv := by
  unfold Machine.speculateAt
  split
  · exact h
  · exact dropped_leaves ((h.translate _ _ _).bind fun _ _ h => h.physRead _ _ _)

theorem Inv.speculateMany (n : Nat) {s : State} (h : Inv s) : (speculateMany n s).Leaves Inv := by
  induction n generalizing s with
  | zero => exact h
  | succ k ih => exact (h.drawWord.speculateAt _).bind fun _ _ h => ih h

theorem Inv.speculate {s : State} (h : Inv s) (d : Done) : (speculate d s).Leaves Inv := by
  unfold Machine.speculate
  split
  · exact Inv.speculateMany _ h.drawWord
  · exact h

/-! Outcomes -/

/-- Every instruction keeps the invariant, its event included. -/
theorem Inv.exec {s : State} (h : Inv s) (i : Instr) : Next Inv (exec i s) := by
  cases hp : parse i with
  | none => rw [exec_of_no_parse s hp]; trivial
  | some v =>
    obtain ⟨px, v⟩ := v
    rw [exec_of_parse s hp]
    exact Inv.settle (h.run v px)

theorem Inv.runEvent {o : Host.Outcome State Fault Refusal} (h : Next Inv o) (s0 : State) :
    Next Inv (runEvent s0 o) := by
  cases o with
  | next s => exact Inv.afterStep h _ _
  | fault e => trivial
  | refused e => trivial

theorem Inv.reportWrite {s : State} (h : Inv s) (s0 : State) : Next Inv (reportWrite s0 s) :=
  Inv.runEvent ((h.setWriteFaults _).takeTrap _) s0

theorem Inv.conclude {s : State} (h : Inv s) {o : Host.Outcome State Fault Refusal} (ho : Next Inv o) (d : Done)
    (s0 : State) : Next Inv (conclude d s0 s o) := by
  cases o with
  | fault e => trivial
  | refused e => trivial
  | next t =>
    have ht : Inv t := ho
    have hs := ht.speculate d
    unfold Machine.conclude
    dsimp only
    split
    · exact (h.setWriteFaults _).reportWrite _
    · generalize Machine.speculate d t = r at hs
      cases r with
      | ok a u => exact Inv.afterStep hs _ _
      | trap e u => exact Inv.runEvent (Inv.takeTrap hs e) _
      | halt e => trivial
      | refuse e => trivial

theorem Inv.runInstr {s : State} (h : Inv s) (folded : Bool) (i : Instr) (s0 : State) :
    Next Inv (runInstr folded i s0 s) := h.conclude (h.exec i) _ _

theorem Inv.runNext {s : State} (h : Inv s) (s0 : State) : Next Inv (runNext s0 s) := by
  have hf := h.fetchDecode
  unfold Machine.runNext
  generalize Machine.fetchDecode s = r at hf
  cases r with
  | ok i u =>
    have hu : Inv u := hf
    dsimp only
    split
    · exact hu.reportWrite _
    · exact hu.runInstr _ _ _
  | trap t u =>
    have hu : Inv u := hf
    dsimp only
    split
    · exact hu.reportWrite _
    · exact Inv.runEvent (hu.takeTrap t) _
  | halt e => trivial
  | refuse e => trivial

theorem Inv.runBoundary {s : State} (h : Inv s) (il : BitVec 3) : Next Inv (runBoundary il s) := by
  unfold Machine.runBoundary
  split
  · rename_i off u hp
    split
    · exact h.reportWrite _
    · exact Inv.runEvent (Inv.settleSequence ((h.pendingInterrupt hp).interruptSequence _)) _
  · have hr := h.reportsWrite s.tracePending
    dsimp only
    split
    · exact hr.reportWrite _
    split
    · exact Inv.runEvent (hr.takeTrap _) _
    · exact hr.runNext _

/-- Every step keeps the invariant. -/
theorem Inv.step {s : State} (h : Inv s) : Next Inv (step s) := by
  have hb := h.nextPins.boundary (Machine.nextPins s).1
  unfold Machine.step
  dsimp only
  generalize Machine.boundary _ _ = r at hb
  cases r with
  | ok a u =>
    have hu : Inv u := hb
    obtain ⟨h2, h1⟩ := hu.foldedJump
    dsimp only
    split
    · exact hu.resetSequence _
    · split
      · rename_i i t v e
        exact (h1 i t (by rw [e])).runInstr _ _ _
      · rename_i v e
        rw [e] at h2
        exact h2.runBoundary _
  | trap t u => exact Inv.resetSequence hb _
  | halt e => trivial
  | refuse e => trivial

/-! The obligations -/

/-- Settles O5: `Inv.step`, read at a step that answers a next state. -/
theorem stepKeepsInvariant : Obligations.StepKeepsInvariant := by
  intro s t h hs
  have ht := h.step
  rw [hs] at ht
  exact ht

/-- Settles O4: every field of the reset state is evaluated. -/
theorem invariantAtReset : Obligations.InvariantAtReset where
  memory := rfl
  pc := by decide
  psw := by decide
  config := by decide
  configEff := by decide
  isp := by decide
  msp := by decide
  sp := by decide
  shad := by decide
  vb := by decide
  stb := by decide
  window := by decide
  flags := nofun

end Sys2Proof.Machine
end

section
/-! PROOF. The two-operand instructions in the ordinary situation (spec/40_arithmetic.md to spec/46_tagged.md): each is
its operation, brought to a state by the laws of `RunCalm`; what is added here is what their flags are as bits of PSW. -/

namespace Sys2Proof.Machine

/-! Flags as bits of PSW -/

theorem getLsbD_flagBit {i : Nat} (hi : i < 32) (b : Bool) (k : Nat) :
    (flagBit i b).getLsbD k = (b && decide (k = i)) := by
  cases b
  · simp [flagBit]
  · simp [flagBit, ← BitVec.twoPow_eq, BitVec.getLsbD_twoPow, hi, eq_comm]

theorem getLsbD_mergeBits (m a b : Word) (k : Nat) :
    (mergeBits m a b).getLsbD k = if m.getLsbD k then b.getLsbD k else a.getLsbD k := by
  simp only [mergeBits, BitVec.getLsbD_or, BitVec.getLsbD_and, BitVec.getLsbD_not]
  cases hm : m.getLsbD k
  · simpa using fun ha => BitVec.lt_of_getLsbD ha
  · simp

/-- Writing one flag is putting its bit. -/
theorem mergeBits_flagBit {i : Nat} (hi : i < 32) (p : Word) (b : Bool) :
    mergeBits (flagBit i true) p (flagBit i b) = putBit p i b := by
  refine BitVec.eq_of_getLsbD_eq fun k _ => ?_
  rw [getLsbD_mergeBits, getLsbD_flagBit hi, getLsbD_flagBit hi, getLsbD_putBit p hi]
  by_cases hk : k = i <;> simp [hk]

/-- Writing F, C and V is putting their bits. -/
theorem mergeBits_flagsFCV (p : Word) (f c v : Bool) :
    mergeBits (flagBit flagF true ||| maskCV) p (flagBit flagF f ||| flagsCV c v) =
      putBit (putBit (putBit p flagF f) flagC c) flagV v := by
  have hF : flagF < 32 := by decide
  have hC : flagC < 32 := by decide
  have hV : flagV < 32 := by decide
  refine BitVec.eq_of_getLsbD_eq fun k _ => ?_
  simp only [getLsbD_mergeBits, maskCV, flagsCV, BitVec.getLsbD_or, getLsbD_flagBit hF, getLsbD_flagBit hC,
    getLsbD_flagBit hV, getLsbD_putBit _ hF, getLsbD_putBit _ hC, getLsbD_putBit _ hV]
  by_cases h4 : k = flagF
  · subst h4; simp [flagF, flagC, flagV]
  by_cases h5 : k = flagC
  · subst h5; simp [flagF, flagC, flagV]
  by_cases h6 : k = flagV
  · subst h6; simp [flagF, flagC, flagV]
  · simp [h4, h5, h6]

/-- A comparison writes F alone. -/
theorem calcCompare_psw (b : Bool) (p : Word) : (calcCompare b).psw p = putBit p flagF b :=
  mergeBits_flagBit (by decide) p b

theorem setPsw_psw_self (s : State) : s.setPsw s.psw = s := rfl

/-! ADD to USHR, their "3" forms, the interlocked instructions and MOV -/

/-- Settles O8: `runBinary_calm`. -/
theorem binaryResult : Obligations.BinaryResult := by
  intro i op px f s hp hc hs hd hw h1 hz
  obtain ⟨v, r, hv, hrun⟩ := runBinary_calm op px f s hc hs hd hw h1 hz
  exact ⟨v, r, hv, (exec_of_parse s hp).trans (congrArg settle hrun)⟩

/-- Settles O9: `runBinaryAcc_calm`. -/
theorem binaryToAccumulator : Obligations.BinaryToAccumulator := by
  intro i op px f s hp hc hs hd h1 ha hf hz
  obtain ⟨v, r, hv, hrun⟩ := runBinaryAcc_calm op px f s hc hs hd h1 ha hf hz
  exact ⟨v, r, hv, (exec_of_parse s hp).trans (congrArg settle hrun)⟩

/-- Settles O11: `runLock_calm`. -/
theorem interlockedResult : Obligations.InterlockedResult := by
  intro i op px f s u hp hc hs hd hw h1 hu hcu ha hf
  obtain ⟨r, hrun⟩ := runLock_calm op px f s u hc hs hd hw h1 hu hcu ha hf
  exact ⟨r, (exec_of_parse s hp).trans (congrArg settle hrun)⟩

/-- Settles O14: `runMov_calm`. -/
theorem movResult : Obligations.MovResult := by
  intro i px f s hp hc hs hd hw
  obtain ⟨r, hrun⟩ := runMov_calm px f s hc hs hd hw
  exact ⟨r, (exec_of_parse s hp).trans (congrArg settle hrun)⟩

/-! Comparisons -/

/-- What a comparison decides. -/
def CmpOp.holds (op : CmpOp) (a b : Word) : Bool :=
  match op with
  | .eq => a == b
  | .gt => decide (signed b < signed a)
  | .hi => decide (b.toNat < a.toNat)

theorem CmpOp.calc_eq (op : CmpOp) (a b : Word) : op.calc a b = calcCompare (op.holds a b) := by
  cases op <;> rfl

/-- Settles O12: `runCompare_calm`, and F alone is written. -/
theorem compareResult : Obligations.CompareResult := by
  intro i op px f s hp hc hs hd h1
  obtain ⟨r, hrun⟩ := runCompare_calm op px f s hc hs hd h1
  rw [CmpOp.calc_eq, calcCompare_psw] at hrun
  refine ⟨_, r, ?_, (exec_of_parse s hp).trans (congrArg settle hrun)⟩
  cases op with
  | eq => exact beq_iff_eq
  | gt => exact decide_eq_true_iff
  | hi => exact decide_eq_true_iff

/-! Tagged arithmetic -/

/-- The untagged operation of TADD and TSUB: its result, carry and overflow. -/
def TagOp.plainCalc (op : TagOp) (a b : Word) : Word × Bool × Bool :=
  match op with
  | .tadd => (b + a, carryAdd a b, overflowAdd a b)
  | .tsub => (b - a, borrowSub a b, overflowSub a b)

theorem TagOp.calc_eq (op : TagOp) (a b : Word) :
    op.calc a b = calcTagged a b (op.plainCalc a b).1 (op.plainCalc a b).2.1 (op.plainCalc a b).2.2 := by
  cases op <;> rfl

theorem tagged_iff (a b : Word) : tagged a b = true ↔ a.extractLsb' 0 2 ≠ 0#2 ∨ b.extractLsb' 0 2 ≠ 0#2 := by
  simp [tagged]

theorem calcTagged_of_tagged {a b : Word} (h : tagged a b = true) (r : Word) (c v : Bool) :
    calcTagged a b r c v = ⟨none, flagBit flagF true, flagBit flagF true⟩ := by
  simp [calcTagged, h]

theorem calcTagged_of_untagged {a b : Word} (h : tagged a b = false) (r : Word) (c v : Bool) :
    calcTagged a b r c v =
      ⟨if v then none else some r, flagBit flagF true ||| maskCV, flagBit flagF v ||| flagsCV c v⟩ := by
  simp [calcTagged, h]

/-- Settles O13: `runTagged_calm`, by whether a tag is set, and then by whether the operation overflows. -/
theorem taggedResult : Obligations.TaggedResult := by
  intro i op px f s a b hp hc hs hd hw h1 ha hb
  obtain ⟨r, hrun⟩ := runTagged_calm op px f s hc hs hd hw h1
  rw [← ha, ← hb, TagOp.calc_eq] at hrun
  refine ⟨r, (op.plainCalc a b).1, (op.plainCalc a b).2.1, (op.plainCalc a b).2.2, by cases op <;> rfl,
    (exec_of_parse s hp).trans ((congrArg settle hrun).trans ?_)⟩
  rw [settle_ok]
  refine congrArg (fun u => Host.Outcome.next (completed (nextPc px f.parcels s) r u)) ?_
  generalize op.plainCalc a b = x
  obtain ⟨v, c, o⟩ := x
  by_cases ht : tagged a b = true
  · simp only [if_pos ((tagged_iff a b).1 ht), calcTagged_of_tagged ht]
    exact congrArg s.setPsw (mergeBits_flagBit (by decide) _ _)
  · rw [if_neg (fun h => ht ((tagged_iff a b).2 h))]
    simp only [calcTagged_of_untagged (Bool.eq_false_iff.2 ht)]
    cases o with
    | true => exact congrArg s.setPsw (mergeBits_flagsFCV _ _ _ _)
    | false =>
      simp only [Bool.false_eq_true, if_false, pswAfter, Bool.true_and, beq_iff_eq]
      split
      · exact setPsw_psw_self _
      · exact congrArg _ (mergeBits_flagsFCV _ _ _ _)

/-! Division by zero, and register destinations at user level -/

/-- Settles O44: the operation reaches its test of the divisor with the state as it was. -/
theorem zeroDivisorTraps : Obligations.ZeroDivisorTraps := by
  intro i op acc px f s hp ht hc hs hd hw h1 ha hz
  refine (exec_of_parse s hp).trans (congrArg settle (?_ : runBinary op acc px f s = .trap .zeroDivide s))
  have hz' : (op.traps && operandValue px f.src s == 0#32) = true := by simp [ht, hz]
  cases acc with
  | true =>
    obtain ⟨ha, hf⟩ := ha rfl
    simp only [runBinary, if_true, openForm_calm px .reads f s hc hs hd (fun h => by cases h) (fun _ => h1), Res.bind_ok,
      readPlace_calm _ px _ s hc hs, readPlace_calm _ px _ s hc hd, prepAcc_calm s hc ha hf, accPlace_privileged, hz',
      raiseIf_false, raiseIf_true, Res.bind_trap]
  | false =>
    obtain ⟨hi, hr⟩ := (operandWritable_iff _ _ _).1 (hw rfl)
    simp only [runBinary, Bool.false_eq_true, if_false, openForm_calm px .updates f s hc hs hd (fun _ => hi) (fun _ => h1),
      Res.bind_ok, readPlace_calm _ px _ s hc hs, readPlace_calm _ px _ s hc hd, prepPlace_calm false px _ s hc hd hi,
      privileged_calm px _ _ s hd, hr, hz', raiseIf_false, raiseIf_true, Res.bind_trap]

/-- At user level a register destination ends every two-operand instruction that stores in its destination. -/
theorem run_register_user (op : DyOp) (f : Form) (s : State) (hu : pswX s.psw = true) (hw : op.writes = true)
    (hma : op ≠ .mova) (hdq : op ≠ .dqm) (hc : calm s = true)
    (hs : operandReady true (modeSize true f.src.mode) f.src s = true) (hm : f.dst.mode = 0x7#4)
    (hr : (Reg.ofField f.dst.field.value).isSome = true) (h1 : op = .mov ∨ oneRegister true f = true) :
    op.run true f s = .trap .privilegeViolation s := by
  have hreg : isRegister true f.dst = true := by simp [isRegister, hm]
  have hi : isImmediate f.dst = false := by simp [isImmediate, hm]
  have hd : operandReady true (modeSize true f.dst.mode) f.dst s = true := by
    have hk := (modeKind_register true f.dst.mode).2 ⟨rfl, hm⟩
    simp only [operandReady, hk, hr]
  have hpriv : (placeOf true (modeSize true f.dst.mode) f.dst s).privileged s = true := by
    rw [privileged_calm _ _ _ _ hd, hreg, hu]; rfl
  have hone : op ≠ .mov → oneRegister true f = true := fun h => h1.resolve_left h
  have hopen := fun (h : op ≠ .mov) =>
    openForm_calm true .updates f s hc hs hd (fun _ => hi) (fun _ => hone h)
  cases op with
  | binary op acc =>
    cases acc with
    | true => cases hw
    | false =>
      show runBinary op false true f s = _
      simp only [runBinary, Bool.false_eq_true, if_false, hopen nofun, Res.bind_ok, readPlace_calm _ _ _ s hc hs,
        readPlace_calm _ _ _ s hc hd, prepPlace_calm _ _ _ s hc hd hi, hpriv, raiseIf_true, Res.bind_trap]
  | lock op =>
    show runLock op true f s = _
    simp only [runLock, hopen nofun, Res.bind_ok, readPlace_calm _ _ _ s hc hs,
      readPlace_calm _ _ _ s hc hd, prepPlace_calm _ _ _ s hc hd hi, hpriv, raiseIf_true, Res.bind_trap]
  | tagged op =>
    show runTagged op true f s = _
    simp only [runTagged, hopen nofun, Res.bind_ok, readPlace_calm _ _ _ s hc hs, readPlace_calm _ _ _ s hc hd]
    split <;> simp only [prepPlace_calm _ _ _ s hc hd hi, Res.bind_ok, hpriv, raiseIf_true, Res.bind_trap]
  | mov =>
    show runMov true f s = _
    simp only [runMov, openForm_calm true .writes f s hc hs hd (fun _ => hi) (fun h => by cases h), Res.bind_ok,
      readPlace_calm _ _ _ s hc hs, prepPlace_calm _ _ _ s hc hd hi, hpriv, raiseIf_true, Res.bind_trap]
  | mova => exact absurd rfl hma
  | dqm => exact absurd rfl hdq
  | compare op => cases hw
  | unimplemented => cases hw

/-- Settles O45: KRET and CRET test the level first; the others by `run_register_user`. -/
theorem userRegisterWriteTraps : Obligations.UserRegisterWriteTraps := by
  intro s hu
  refine ⟨?_, ?_, fun i op f hp hw hma hdq hc hs hm hr h1 => ?_⟩
  · rw [exec_of_parse s (show parse .kret = some (false, .niladic .kret) from rfl)]
    show settle (runKret s) = _
    simp only [runKret, hu, raiseIf_true, Res.bind_trap, settle_trap]
  · rw [exec_of_parse s (show parse .cret = some (false, .niladic .cret) from rfl)]
    show settle (runCret s) = _
    simp only [runCret, hu, raiseIf_true, Res.bind_trap, settle_trap]
  · exact (exec_of_parse s hp).trans (congrArg settle (run_register_user op f s hu hw hma hdq hc hs hm hr h1))

end Sys2Proof.Machine
end

section
/-! PROOF. MOVA and DQM (spec/43_move.md) in the ordinary situation. A word access takes the whole word, so a block of
words on one side of the stack cache's bounds is its words one after another. -/

namespace Sys2Proof.Machine

/-! Outcomes -/

theorem exec_of_run_ok {i : Instr} {px : Bool} {v : View} {s t : State} (hp : parse i = some (px, v))
    (h : v.run px s = .ok () t) : exec i s = .next t := by
  rw [exec_of_parse s hp, h, settle_ok]

theorem exec_of_run_trap {i : Instr} {px : Bool} {v : View} {s t : State} {e : Trap} (hp : parse i = some (px, v))
    (h : v.run px s = .trap e t) : exec i s = takeTrap e t := by
  rw [exec_of_parse s hp, h, settle_trap]

theorem exec_of_run_refuse {i : Instr} {px : Bool} {v : View} {s : State} {e : Refusal} (hp : parse i = some (px, v))
    (h : v.run px s = .refuse e) : exec i s = .refused e := by
  rw [exec_of_parse s hp, h, settle_refuse]

/-! Word accesses -/

@[simp] theorem laneAddr_word (l : Bool) (a : Word) : laneAddr l 4 a = a := by
  cases l <;> simp [laneAddr]

theorem laneShift_word (a : Word) : laneShift 4 a = 0 := by simp [laneShift]

@[simp] theorem laneGet_word (a w : Word) : laneGet 4 a w = w := by
  have hm : bytesMask 4 = BitVec.allOnes 32 := by decide
  rw [laneGet, laneShift_word, hm, BitVec.and_allOnes]
  rfl

@[simp] theorem lanePut_word (a w v : Word) : lanePut 4 a w v = v := by
  refine BitVec.eq_of_getLsbD_eq fun k hk => ?_
  have hm : bytesMask 4 = BitVec.allOnes 32 := by decide
  rw [lanePut, getLsbD_mergeBits, laneShift_word, hm, BitVec.shiftLeft_zero, BitVec.shiftLeft_zero,
    BitVec.getLsbD_allOnes, decide_eq_true hk, if_pos rfl]

theorem wordAlign_eq (w : Word) : wordAlign w = (w >>> 2) <<< 2 := by
  have key : ∀ j : Fin 32, (0xFFFFFFFC#32).getLsbD j.val = decide (2 ≤ j.val) := by decide
  refine BitVec.eq_of_getLsbD_eq fun i hi => ?_
  have hk := key ⟨i, hi⟩
  simp only [wordAlign, BitVec.getLsbD_and, BitVec.getLsbD_shiftLeft, BitVec.getLsbD_ushiftRight, hk, hi]
  by_cases h : i < 2
  · simp [h]
  · have h2 : 2 + (i - 2) = i := by omega
    simp [h, h2, Nat.le_of_not_lt h]

theorem wordAlign_toNat (w : Word) : (wordAlign w).toNat = w.toNat / 4 * 4 := by
  rw [wordAlign_eq, BitVec.toNat_shiftLeft, BitVec.toNat_ushiftRight, Nat.shiftLeft_eq, Nat.shiftRight_eq_div_pow]
  have := w.isLt
  rw [Nat.mod_eq_of_lt (by omega)]

theorem aligned_iff (a : Word) (n : Nat) : aligned a n = true ↔ a.toNat % n = 0 := beq_iff_eq

theorem wordAlign_of_aligned {a : Word} (h : aligned a 4 = true) : wordAlign a = a := by
  refine BitVec.eq_of_toNat_eq ?_
  rw [aligned_iff] at h
  rw [wordAlign_toNat]
  omega

/-- A word load is the stack cache's word or memory's. -/
theorem load_word (va : Word) (s : State) :
    load 4 va s = if hits va s then readCell va s else Memory.readBE s.mem (wordAlign va) 4 := by
  rw [load, laneGet_word]

/-- A word store replaces the stack cache's word or memory's. -/
theorem store_word (va v : Word) (s : State) :
    store 4 va v s = if hits va s then writeCell va v s else physStore va 4 v s := by
  rw [store, laneAddr_word, lanePut_word]

/-! Blocks -/

/-- The words of a block all lie in the stack cache, or all outside it. -/
def SameSide (va : Word) (n : Nat) (s : State) : Prop :=
  ∀ k, k < n → hits (va + BitVec.ofNat 32 (4 * k)) s = hits va s

theorem block_next (va : Word) (k : Nat) :
    va + 4#32 + BitVec.ofNat 32 (4 * k) = va + BitVec.ofNat 32 (4 * (k + 1)) := by
  refine BitVec.eq_of_toNat_eq ?_
  simp only [BitVec.toNat_add, BitVec.toNat_ofNat]
  omega

theorem SameSide.head {va : Word} {n : Nat} {s : State} (h : SameSide va (n + 2) s) :
    hits (va + 4#32) s = hits va s := h 1 (by omega)

theorem SameSide.tail {va : Word} {n : Nat} {s : State} (h : SameSide va (n + 1) s) : SameSide (va + 4#32) n s := by
  intro k hk
  have hn : hits (va + 4#32) s = hits va s := h 1 (by omega)
  rw [block_next, h _ (by omega), hn]

/-- A block of two or four words, aligned to its size, lies on one side of quad-aligned bounds (20_memory.md R70). -/
theorem sameSide_of_aligned {va : Word} {n : Nat} {s : State} (hi : Inv s) (hn : n = 2 ∨ n = 4)
    (ha : aligned va (4 * n) = true) : SameSide va n s := by
  intro k hk
  have hs := (quadAligned_iff _).1 hi.sp
  have hm := (quadAligned_iff _).1 hi.msp
  rw [aligned_iff] at ha
  have h16 : va.toNat % 8 = 0 ∧ k < 4 ∧ (va.toNat % 16 = 0 ∨ k < 2) := by
    rcases hn with rfl | rfl <;> omega
  have hlt := va.isLt
  have hnat : (va + BitVec.ofNat 32 (4 * k)).toNat = va.toNat + 4 * k := by
    simp only [BitVec.toNat_add, BitVec.toNat_ofNat]
    omega
  have h1 : s.sp ≤ va + BitVec.ofNat 32 (4 * k) ↔ s.sp ≤ va := by
    rw [BitVec.le_def, BitVec.le_def, hnat]; omega
  have h2 : va + BitVec.ofNat 32 (4 * k) < s.msp ↔ va < s.msp := by
    rw [BitVec.lt_def, BitVec.lt_def, hnat]; omega
  simp only [hits, h1, h2]

theorem loadWords_length (n : Nat) (va : Word) (s : State) : (loadWords n va s).length = n := by
  induction n generalizing va with
  | zero => rfl
  | succ k ih => simp [loadWords, ih]

theorem cellWords_hit (n : Nat) (va : Word) (s : State) (h : SameSide va n s) (hh : hits va s = true) :
    cellWords va n s = loadWords n va s := by
  induction n generalizing va with
  | zero => rfl
  | succ k ih =>
    cases k with
    | zero => simp [cellWords, loadWords, load_word, hh]
    | succ k =>
      rw [cellWords, loadWords, ← ih _ h.tail (h.head.trans hh), load_word, if_pos hh]

theorem physWords_miss (n : Nat) (l : Bool) (va : Word) (s : State) (hb : ramBus s = true) (h : SameSide va n s)
    (hh : hits va s = false) : physWords l va n s = .ok (loadWords n va s) s := by
  induction n generalizing va l with
  | zero => rfl
  | succ k ih =>
    have hk : physWords true (va + 4#32) k s = .ok (loadWords k (va + 4#32) s) s := by
      cases k with
      | zero => rfl
      | succ k => exact ih _ _ h.tail (h.head.trans hh)
    simp [physWords, physRead_ram _ _ _ _ hb, hk, loadWords, load_word va, hh]

/-- The words a block transfer reads. -/
theorem readWords_calm (acc : Access) (va : Word) (n : Nat) (s : State) (hc : calm s = true)
    (hs : acc.shaky = true → hits va s = false) (ha : aligned va 4 = true) (h : SameSide va n s) :
    readWords acc va n s = .ok (loadWords n va s) s := by
  obtain ⟨hp, hu⟩ := (calm_iff s).1 hc
  obtain ⟨hv, hb, -⟩ := (plain_iff s).1 hp
  rw [readWords, checkAccess_ok va 4 s ha]
  simp only [Res.bind_ok, useCache_reliable acc va s hu hs]
  cases hh : hits va s with
  | true => simp [cellWords_hit n va s h hh]
  | false => simp [dataAddress_physical _ _ _ _ _ hv hb, dataWords, readAhead_hidden _ _ (readsShow_ram s hv hb),
      physWords_miss n _ va s hb h hh]

/-- Where a block store lands. -/
def blockGrant (va : Word) (n : Nat) (s : State) : Grant := if hits va s then .cell va else .phys va n

theorem dqmTarget_calm (acc : Access) (va : Word) (m n : Nat) (sg : Bool) (s : State) (hc : calm s = true)
    (hs : acc.shaky = true → hits va s = false) (ha : aligned va 4 = true) :
    dqmTarget (.memory acc va m sg) n s = .ok (blockGrant va n s) s := by
  obtain ⟨hp, hu⟩ := (calm_iff s).1 hc
  obtain ⟨hv, hb, -⟩ := (plain_iff s).1 hp
  simp only [dqmTarget, prepWrite_calm acc va 4 s hv hb hu hs ha, Res.bind_ok, targetOf, blockGrant]
  cases hits va s with
  | true => rfl
  | false => simp [claim, readAhead_hidden _ _ (readsShow_ram s hv hb), takenWords_ram _ _ _ _ hb]

theorem SameSide.store {va : Word} {n : Nat} {s : State} (h : SameSide va n s) (m : Nat) (a v : Word) :
    SameSide va n (store m a v s) := fun k hk => by rw [hits_store, hits_store]; exact h k hk

/-- The block store is its words one after another. -/
theorem commitWords_calm (ws : List Word) (va : Word) (s : State) (h : SameSide va ws.length s) :
    commitWords (blockGrant va ws.length s) ws s = storeWords va ws s := by
  induction ws generalizing va s with
  | nil => rfl
  | cons w rest ih =>
    have hrest := ih (va + 4#32) (store 4 va w s) (h.tail.store 4 va w)
    rw [storeWords, ← hrest, blockGrant, blockGrant, hits_store]
    cases rest with
    | nil => cases hh : hits va s <;> simp [commitWords, store_word, hh]
    | cons x xs =>
      rw [h.head]
      cases hh : hits va s <;> simp [commitWords, store_word, hh]

/-! Operands -/

/-- The place of an operand in memory. -/
theorem placeOf_memory (px : Bool) (n : Nat) (o : Operand) (s : State) (hr : operandReady px n o s = true)
    (hi : isImmediate o = false) (hg : isRegister px o = false) :
    ∃ acc, placeOf px n o s = .memory acc (operandAddress px o s) n (modeSigned o.mode) ∧
      (acc.shaky = true → hits (operandAddress px o s) s = false) ∧ aligned (operandAddress px o s) n = true := by
  cases hk : modeKind px o.mode with
  | none => simp [operandReady, hk] at hr
  | some k =>
    cases k with
    | absolute =>
      simp only [operandReady, hk] at hr
      exact ⟨plainAccess s, by simp [placeOf, operandAddress, hk], plain_shaky s _, hr⟩
    | stack =>
      simp only [operandReady, hk, Bool.and_eq_true] at hr
      exact ⟨stackAccess s, by simp [placeOf, operandAddress, hk], firm_shaky s _ hr.2, hr.1⟩
    | indirect =>
      simp only [operandReady, hk, Bool.and_eq_true] at hr
      exact ⟨plainAccess s, by simp [placeOf, operandAddress, hk], plain_shaky s _, hr.2⟩
    | immediate => simp [isImmediate, (modeKind_immediate px o.mode).1 hk] at hi
    | register => simp [isRegister, (modeKind_register px o.mode).1 hk] at hg

theorem placeOf_immediate (px : Bool) (n : Nat) (o : Operand) (s : State) (hi : isImmediate o = true) :
    placeOf px n o s = .constant o.field.value := by
  have hk := (modeKind_immediate px o.mode).2 (by simpa [isImmediate] using hi)
  simp [placeOf, hk]

theorem isRegister_wordMode (px : Bool) (o : Operand) (hw : wordMode o.mode = true) : isRegister px o = false := by
  rcases wordMode_cases _ hw with h | h | h | h <;> simp [isRegister, h]

/-- The address of a word operand; only an indirect one reads memory. -/
theorem effectiveAddress_calm (px : Bool) (o : Operand) (s : State) (hc : calm s = true) (hw : wordMode o.mode = true)
    (hi : isImmediate o = false)
    (hr : o.mode = 0xE#4 → aligned (stackAddress o s) 4 = true ∧ firm (stackAddress o s) s = true) :
    effectiveAddress o s = .ok (operandAddress px o s) s := by
  obtain ⟨hp, hu⟩ := (calm_iff s).1 hc
  obtain ⟨hv, hb, -⟩ := (plain_iff s).1 hp
  have hkind : ∀ px, modeKind px 0xC#4 = some .absolute ∧ modeKind px 0xD#4 = some .stack ∧
      modeKind px 0xE#4 = some .indirect := by decide
  rcases wordMode_cases _ hw with h | h | h | h
  · simp [effectiveAddress, operandAddress, h, hkind]
  · simp [effectiveAddress, operandAddress, h, hkind]
  · obtain ⟨ha, hf⟩ := hr h
    simp [effectiveAddress, operandAddress, h, hkind, memRead_calm _ _ _ _ hv hb hu (firm_shaky s _ hf) ha]
  · simp [isImmediate, h] at hi

theorem pointerAligned_of (o : Operand) (s : State) (h : o.mode = 0xE#4 → aligned (stackAddress o s) 4 = true)
    (hw : wordMode o.mode = true) : pointerAligned o s = true := by
  have hkind : modeKind false 0xC#4 = some .absolute ∧ modeKind false 0xD#4 = some .stack ∧
      modeKind false 0xE#4 = some .indirect ∧ modeKind false 0xF#4 = some .immediate := by decide
  rcases wordMode_cases _ hw with hm | hm | hm | hm
  · simp [pointerAligned, hm, hkind]
  · simp [pointerAligned, hm, hkind]
  · simp [pointerAligned, hm, hkind, h hm]
  · simp [pointerAligned, hm, hkind]

/-! MOVA and DQM -/

/-- Settles O15: the source's address is found, and stored at the destination. -/
theorem movaResult : Obligations.MovaResult := by
  intro i px f s hp hc hw hi hdi hdr hptr hd
  have hlegal : movaLegal px f = true := by
    simp [movaLegal, hw, hi, hdi, hdr, legalMode_ready px _ _ _ hd]
  have hpa := pointerAligned_of f.src s (fun h => (hptr h).1) hw
  have hnone : operandRegister px f.dst = none := by simp [operandRegister, hdr]
  refine ⟨quiet s, exec_of_run_ok hp (?_ : runMova px f s = _)⟩
  simp only [runMova, hlegal, hpa, staticAligned_ready px _ _ _ hd, Bool.not_true, Bool.or_false, raiseIf_false,
    Res.bind_ok, effectiveAddress_calm px f.src s hc hw hi hptr, locate_calm px _ _ s hc hd,
    prepPlace_calm false px _ s hc hd hdi, claimDest_calm _ _ _ _ hc, storeDest_calm, retire_eq, storeOperand, hnone]

/-- How many words DQM moves, and which destinations it has. -/
theorem dqmWords_some {px : Bool} {m : BitVec 4} {n : Nat} (h : dqmWords px m = some n) :
    (n = 2 ∨ n = 4) ∧ m ≠ 0xF#4 ∧ m ≠ 0x7#4 := by
  have key : ∀ px m, dqmWords px m = none ∨ ((dqmWords px m = some 2 ∨ dqmWords px m = some 4) ∧
      m ≠ 0xF#4 ∧ m ≠ 0x7#4) := by decide
  rcases key px m with hk | ⟨hk | hk, hm⟩
  · rw [hk] at h; cases h
  · rw [hk] at h; cases h; exact ⟨.inl rfl, hm⟩
  · rw [hk] at h; cases h; exact ⟨.inr rfl, hm⟩

theorem aligned_block {va : Word} {n : Nat} (h : aligned va (4 * n) = true) : aligned va 4 = true := by
  rw [aligned_iff] at *
  exact Nat.mod_eq_zero_of_dvd (dvd_trans (Dvd.intro n rfl) (Nat.dvd_of_mod_eq_zero h))

/-- The words of DQM's source. -/
theorem dqmSource_calm (px : Bool) (n : Nat) (o : Operand) (s : State) (hc : calm s = true) (hinv : Inv s)
    (hn : n = 2 ∨ n = 4) (hw : wordMode o.mode = true) (hr : operandReady px (4 * n) o s = true) :
    dqmSource (placeOf px (4 * n) o s) n s =
      .ok (if isImmediate o then List.replicate n o.field.value else loadWords n (operandAddress px o s) s) s := by
  cases hi : isImmediate o with
  | true => simp [placeOf_immediate _ _ _ _ hi, dqmSource]
  | false =>
    obtain ⟨acc, hpl, hsh, ha⟩ := placeOf_memory px _ o s hr hi (isRegister_wordMode px o hw)
    rw [hpl]
    simp [dqmSource, readWords_calm acc _ n s hc hsh (aligned_block ha) (sameSide_of_aligned hinv hn ha)]

/-- Settles O16: the source block is read whole, then the destination block is stored word by word. -/
theorem dqmResult : Obligations.DqmResult := by
  intro i px f s n hp hc hinv hn hw hs hd
  obtain ⟨hn4, hF, h7⟩ := dqmWords_some hn
  have hdi : isImmediate f.dst = false := by simp [isImmediate, hF]
  have hdr : isRegister px f.dst = false := by simp [isRegister, h7]
  obtain ⟨acc, hpl, hsh, ha⟩ := placeOf_memory px _ f.dst s hd hdi hdr
  have hlen : (if isImmediate f.src then List.replicate n f.src.field.value
      else loadWords n (operandAddress px f.src s) s).length = n := by
    split
    · exact List.length_replicate
    · exact loadWords_length _ _ _
  have hside := sameSide_of_aligned hinv hn4 ha
  have hcommit := commitWords_calm _ _ s (hlen.symm ▸ hside)
  rw [hlen] at hcommit
  refine ⟨quiet s, exec_of_run_ok hp (?_ : runDqm px f s = _)⟩
  simp only [runDqm, hn, hw, staticAligned_ready px _ _ _ hs, staticAligned_ready px _ _ _ hd, Bool.not_true,
    Bool.or_false, raiseIf_false, Res.bind_ok, locate_calm px _ _ s hc hs, locate_calm px _ _ s hc hd,
    dqmSource_calm px n f.src s hc hinv hn4 hw hs, hpl, dqmTarget_calm acc _ _ n _ s hc hsh (aligned_block ha),
    retire_eq, hcommit]

end Sys2Proof.Machine
end

section
/-! PROOF. Jumps, calls, frames, KCALL, KRET, the emulation sequences and the one-operand and no-operand instructions
(spec/44_program_control.md, spec/47_other.md) in the ordinary situation. -/

namespace Sys2Proof.Machine

/-! The unimplemented and trapped sequences -/

theorem unimplementedSequence_calm (off : Word) (s : State) (hc : calm s = true) (ha : aligned (csp s) 4 = true)
    (hf : firm (csp s) s = true) (hav : aligned (s.vb + off) 4 = true) (hh : hits (s.vb + off) s = false) :
    unimplementedSequence off s = .ok () (((store 4 (csp s) s.pc s).setPc
      (textAlign (load 4 (s.vb + off) (store 4 (csp s) s.pc s)))).setEnded .emulated) := by
  obtain ⟨hp, hu⟩ := (calm_iff s).1 hc
  obtain ⟨hv, hb, -⟩ := (plain_iff s).1 hp
  have hvb : (store 4 (csp s) s.pc s).vb = s.vb := by unfold store; split <;> rfl
  have hw := memWrite_calm (stackAccess s).exact (csp s) 4 s.pc s hv hb hu (firm_shaky s _ hf) ha
  simp only [unimplementedSequence, hw, Res.bind_ok, hvb]
  rw [sequenceRead_plain _ _ (by rw [plain_store]; exact hp) (by rw [usable_store]; exact hu)
    (by rw [hits_store]; exact hh) hav, Res.bind_ok]

/-- Settles O17: each kind runs the sequence with its vector. -/
theorem unimplementedSequenceResult : Obligations.UnimplementedSequenceResult := by
  intro i px v off s u hp hv hc ha hf hav hh hu
  subst hu
  have hrun := unimplementedSequence_calm off s hc ha hf hav hh
  refine exec_of_run_ok hp (Eq.trans ?_ hrun)
  obtain ⟨f, rfl, rfl, hl⟩ | ⟨m, o, n, rfl, rfl, hm⟩ | ⟨rfl, rfl⟩ | ⟨rfl, rfl⟩ := hv
  · show runUnimplementedDyadic px f s = _
    have hlegal : (px && (!legalMode px f.src.mode || !legalMode px f.dst.mode)) = false := by
      cases px
      · rfl
      · simp [hl rfl]
    simp only [runUnimplementedDyadic, hlegal, raiseIf_false, Res.bind_ok]
  · show runUnimplementedMonadic m s = _
    simp only [runUnimplementedMonadic, checkMonadic, hm, Bool.not_true, raiseIf_false, Res.bind_ok]
  · rfl
  · rfl

/-! Jumps and calls -/

theorem checkMonadic_word {m : BitVec 4} (h : wordMode m = true) (s : State) : checkMonadic m s = .ok () s := by
  simp [checkMonadic, h]

/-- A direct target needs no access. -/
theorem flowTarget_direct {m : BitVec 4} (h : m = 0xE#4 ∨ m = 0xF#4) (o : Word) (s : State) :
    flowTarget m o s = .ok (flowAddress m o s) s := by
  rcases h with rfl | rfl <;> rfl

theorem flowReady_cases {m : BitVec 4} {o : Word} {s : State} (h : flowReady m o s = true) :
    (m = 0xE#4 ∨ m = 0xF#4) ∨ (wordMode m = true ∧ calm s = true ∧ flowSound m o s = true) := by
  simpa [flowReady, or_assoc, and_assoc] using h

theorem wordMode_direct {m : BitVec 4} (h : m = 0xE#4 ∨ m = 0xF#4) : wordMode m = true := by
  rcases h with rfl | rfl <;> rfl

/-- Settles O18: the target is read or known, and only PC moves. -/
theorem jumpResult : Obligations.JumpResult := by
  intro i px m o n s
  refine ⟨fun hp hr => ?_, fun sense hp hm => ?_⟩
  · refine ⟨quiet s, exec_of_run_ok hp (?_ : runJmp m o s = _)⟩
    rcases flowReady_cases hr with hm | ⟨hm, hc, hs⟩
    · simp only [runJmp, checkMonadic_word (wordMode_direct hm), flowTarget_direct hm, Res.bind_ok, retire_eq]
    · simp only [runJmp, checkMonadic_word hm, flowTarget_calm m o s hc hm hs, Res.bind_ok, retire_eq]
  · refine ⟨quiet s, exec_of_run_ok hp (?_ : runJmpIf sense px m o n s = _)⟩
    have hd : (!(m == 0xE#4 || m == 0xF#4)) = false := by rcases hm with rfl | rfl <;> rfl
    simp only [runJmpIf, hd, raiseIf_false, flowTarget_direct hm, Res.bind_ok, retire_eq]

theorem flowSound_aligned {m : BitVec 4} {o : Word} {s : State} (h : flowSound m o s = true) :
    flowAligned m o s = true := by
  rw [flowSound, Bool.and_eq_true] at h
  exact h.1

/-- A store leaves what a control-flow operand is found by. -/
theorem flowSound_store (m : BitVec 4) (o : Word) (n : Nat) (va v : Word) (s : State) :
    flowSound m o (store n va v s) = flowSound m o s := by
  simp only [flowSound, flowAligned, csp_store, firm_store]

/-- Settles O19: the return address is stored, then the target is found in the state after that store. -/
theorem callResult : Obligations.CallResult := by
  intro i px m o n s u hp hc hm hs ha hf hu
  subst hu
  have hflow := flowTarget_calm m o (store 4 (csp s) (nextPc px n s) s) (by rw [calm_store]; exact hc) hm
    (by rw [flowSound_store]; exact hs)
  refine ⟨quiet s, exec_of_run_ok hp (?_ : runCall px m o n s = _)⟩
  simp only [runCall, checkMonadic_word hm, flowSound_aligned hs, Bool.not_true, raiseIf_false, Res.bind_ok,
    memWrite_csp s _ hc ha hf, hflow, retire_eq]

/-- Settles O22: the target is found, and stored in the accumulator. -/
theorem ldraaResult : Obligations.LdraaResult := by
  intro i px m o n s hp hc hm hs ha hf
  refine ⟨quiet s, exec_of_run_ok hp (?_ : runLdraa px m o n s = _)⟩
  simp only [runLdraa, checkMonadic_word hm, flowTarget_calm m o s hc hm hs, Res.bind_ok, prepAcc_calm s hc ha hf,
    claimAcc_calm s hc, storeAcc_calm, retire_eq]

/-! Frames -/

/-- The CSP after a frame is popped, SHAD and MSP with it. -/
theorem popFrame_eq {s : State} {off c : Word} (hc : c = csp s + quadAlign off) (hq : quadAlign c = c) :
    popFrame off s = if pswCSP s.psw then ((s.setSp c).setMsp (if s.msp < c then c else s.msp)).setShad c
      else (s.setIsp c).setShad c := by
  cases hw : pswCSP s.psw with
  | false => simp [popFrame, setCsp, ← hc, hq, hw]
  | true =>
    by_cases hm : s.msp < c
    · simp [popFrame, setCsp, ← hc, hq, hw, hm]; rfl
    · simp [popFrame, setCsp, ← hc, hq, hw, hm]; rfl

theorem popped_quad {s : State} (hi : Inv s) (o : Word) : quadAlign (csp s + quadAlign o) = csp s + quadAlign o :=
  quadAlign_add _ _ hi.csp (quadAlign_quadAlign o)

theorem popLegal_of {o : Word} (h : o.getLsbD 31 = false) : popLegal 0xD#4 o = true := by
  rw [popLegal, h]; rfl

/-- Settles O20: the return word is read, then the frame is popped. -/
theorem returnResult : Obligations.ReturnResult := by
  intro i px m o c n s hp hc hi hm ho ha hf hcs
  subst hm
  obtain ⟨hpl, hu⟩ := (calm_iff s).1 hc
  obtain ⟨hv, hb, -⟩ := (plain_iff s).1 hpl
  have hpop := popFrame_eq hcs (hcs ▸ popped_quad hi o)
  refine ⟨movedShad s (popFrame o s), exec_of_run_ok hp (?_ : runReturn 0xD#4 o s = _)⟩
  simp only [runReturn, popLegal_of ho, Bool.not_true, raiseIf_false, Res.bind_ok,
    memRead_calm _ _ 4 s hv hb hu (firm_shaky s _ hf) ha, retire_eq]
  rw [hpop]

/-- Settles O21: the frame is popped. -/
theorem popnResult : Obligations.PopnResult := by
  intro i px m o c n s hp hi hm ho hcs
  subst hm
  have hpop := popFrame_eq hcs (hcs ▸ popped_quad hi o)
  refine ⟨movedShad s (popFrame o s), exec_of_run_ok hp (?_ : runPopn px 0xD#4 o n s = _)⟩
  simp only [runPopn, popLegal_of ho, Bool.not_true, raiseIf_false, Res.bind_ok, retire_eq]
  rw [hpop]

theorem checkEnter_legal {m : BitVec 4} {o : Word} {n : Nat} (s : State) (hm : wordMode m = true)
    (hl : enterLegal m o n = true) : checkEnter m o n s = .ok () s := by
  by_cases hD : m = 0xD#4
  · subst hD
    obtain ⟨h31, hn⟩ : o.getLsbD 31 = true ∧ (n ≠ 3 ∨ signed o < -256) := by simpa [enterLegal] using hl
    have h2 : ¬ (n = 3 ∧ -256 ≤ signed o) := by omega
    simp only [checkEnter, hm, h31, Bool.not_true, Bool.and_false, Bool.or_false, Bool.false_eq_true, if_false, beq_self_eq_true,
      Bool.and_true, Bool.and_eq_true, beq_iff_eq, decide_eq_true_eq, if_neg h2]
  · simp [checkEnter, hm, hD]

/-- ENTER begun with no hazard in flight, once its operand is found. -/
theorem runEnter_calm (px : Bool) (m : BitVec 4) (o : Word) (n : Nat) (s : State) (hc : calm s = true)
    (hm : wordMode m = true) (hl : enterLegal m o n = true) (hr : frameReady m o s = true)
    (hw : pswCSP s.psw = true → s.sp ≤ s.msp) :
    runEnter px m o n s =
      (if !pswCSP s.psw then enterIsp (nextPc px n s) (quadAlign (frameAddress m o s)) s s
       else if m == 0xD#4 then enterOffset (nextPc px n s) (quadAlign (frameAddress m o s)) s s
       else enterEmpty (nextPc px n s) (quadAlign (frameAddress m o s)) s s).after (dropLost [] none) := by
  obtain ⟨-, -, hrec⟩ := (plain_iff s).1 ((calm_iff s).1 hc).1
  have hframe : checkFrame s = .ok () s := by
    have : (pswCSP s.psw && decide (s.msp < s.sp)) = false := by
      cases h : pswCSP s.psw
      · rfl
      · simpa using hw h
    simp [checkFrame, this]
  simp only [runEnter, checkEnter_legal s hm hl, hframe, Res.bind_ok, restoreLost_harmless s hrec, enterWith,
    frameTarget_calm m o s hc hr]

/-- Settles O24: on the interrupt stack nothing is flushed. -/
theorem enterOnInterruptStack : Obligations.EnterOnInterruptStack := by
  intro i px m o c n s hp hc hw hm hl hr hcs
  subst hcs
  obtain ⟨hv, hb, -⟩ := (plain_iff s).1 ((calm_iff s).1 hc).1
  refine ⟨{ movedShad s (setCsp (quadAlign (frameAddress m o s)) s) with flags := flagBit flagE true },
    exec_of_run_ok hp (?_ : runEnter px m o n s = _)⟩
  rw [runEnter_calm px m o n s hc hm hl hr (fun h => by rw [hw] at h; cases h)]
  simp only [hw, Bool.not_false, if_true, enterIsp, checkStore_physical _ s hv hb, Res.bind_ok, enterDone, retire_eq,
    Res.after, dropLost_nil, setCsp, Bool.false_eq_true, if_false, quadAlign_quadAlign]
  rfl

/-! KCALL and KRET -/

theorem wordOperand_calm (m : BitVec 4) (o : Word) (s : State) (hc : calm s = true) (hm : wordMode m = true)
    (hr : operandReady false 4 (monadicOperand m o) s = true) :
    wordOperand m o s = .ok (operandValue false (monadicOperand m o) s) s := by
  have h4 : modeSize false (monadicOperand m o).mode = 4 := by
    show modeSize false m = 4
    simp [modeSize, hm]
  have hv := readPlace_calm ⟨false, 0⟩ false (monadicOperand m o) s hc (by rw [h4]; exact hr)
  rw [h4] at hv
  simp only [wordOperand, staticAligned_ready _ _ _ _ hr, Bool.not_true, raiseIf_false, Res.bind_ok,
    locate_calm _ _ _ s hc hr, hv]

theorem isp_store (n : Nat) (va v : Word) (s : State) : (store n va v s).isp = s.isp := by
  unfold store; split <;> rfl

theorem psw_store (n : Nat) (va v : Word) (s : State) : (store n va v s).psw = s.psw := by
  unfold store; split <;> rfl

theorem vb_store (n : Nat) (va v : Word) (s : State) : (store n va v s).vb = s.vb := by
  unfold store; split <;> rfl

/-- Settles O27: the three words are stored below ISP, then the kernel is entered. -/
theorem kcallResult : Obligations.KcallResult := by
  intro i px m o n s u hp hc hm hr hf hai hav hu
  obtain ⟨hpl, -⟩ := (calm_iff s).1 hc
  obtain ⟨hus, h4, h8, h12, hvec⟩ := (frameClear_iff _ _ _).1 hf
  have hpush := pushFrame_plain (nextPc px n s) (store 4 (s.isp - 12#32) (operandValue false (monadicOperand m o) s) s)
    (by rw [plain_store]; exact hpl) (by rw [usable_store]; exact hus)
    (by rw [isp_store, hits_store]; exact h8) (by rw [isp_store, hits_store]; exact h4) (by rw [isp_store]; exact hai)
  rw [isp_store, psw_store, ← hu] at hpush
  have hui : u.isp = s.isp := by rw [hu]; simp only [isp_store]
  have hup : u.psw = s.psw := by rw [hu]; simp only [psw_store]
  have huv : u.vb = s.vb := by rw [hu]; simp only [vb_store]
  have hkern := enterKernel_plain s.vb u (by rw [hu]; simp only [plain_store]; exact hpl)
    (by rw [hu]; simp only [usable_store]; exact hus) (by rw [hu]; simp only [hits_store]; exact hvec) hav
  rw [hui, hup] at hkern
  refine ⟨{ quiet s with flags := flagMask }, exec_of_run_ok hp (?_ : runKcall px m o n s = _)⟩
  simp only [runKcall, checkMonadic_word hm, Res.bind_ok, wordOperand_calm m o s hc hm hr,
    sequenceWrite_plain _ _ s hpl hus h12 (aligned_sub _ _ rfl hai), hpush, huv, hkern, retire_eq]
  simp only [completed, State.setPsw_pc, State.setPc_pc, textAlign_textAlign]
  rfl

theorem leaveKernel_eq (pc p : Word) (s u : State) (hu : u = (s.setIsp (s.isp + 16#32)).setPsw (p &&& pswMask)) :
    leaveKernel pc p s = .ok () ((((((u.setPc (textAlign pc)).setShad (csp u)).setConfigEff s.config).setVpEff
      (pswVP u.psw)).setRecent (leaveRecent s)).setEnded .completed) := by
  subst hu; rfl

/-- Settles O28: the frame's two words are read, and `leaveKernel` loads them. -/
theorem kretResult : Obligations.KretResult := by
  intro s u hp hus hx ha ha8 ha12 h8 h12 hu
  refine exec_of_run_ok (show parse .kret = some (false, .niladic .kret) from rfl) (?_ : runKret s = _)
  simp only [runKret, hx, raiseIf_false, Res.bind_ok, sequenceRead_plain _ s hp hus h8 ha8,
    sequenceRead_plain _ s hp hus h12 ha12, leaveKernel_eq _ _ s u hu]

/-! CLRE and the flushes -/

/-- Settles O33: PSW with E put to 0. -/
theorem clreClearsEnterGuard : Obligations.ClreClearsEnterGuard := by
  intro s
  have hE : flagE < 32 := by decide
  refine ⟨{ quiet s with flags := flagBit flagE true }, putBit s.psw flagE false,
    exec_of_run_ok (show parse .clre = some (false, .niladic .clre) from rfl) rfl, ?_, fun k hk => ?_, fun h => ?_⟩
  · rw [getLsbD_putBit _ hE, if_pos rfl]
  · rw [getLsbD_putBit _ hE, if_neg hk]
  · rw [h]; decide

/-- The address a flush operand names (D32, log 43). -/
def flushedAddress (m : BitVec 4) (o : Word) (s : State) : Word :=
  if m = 0xD#4 then csp s + o else if m = 0xE#4 then load 4 (csp s + o) s else o

theorem flushOperand_eq (m : BitVec 4) (o : Word) (s : State) (hm : wordMode m = true)
    (hr : m = 0xE#4 → calm s = true ∧ aligned (csp s + o) 4 = true ∧ firm (csp s + o) s = true) :
    flushOperand m o s = .ok (flushedAddress m o s) s := by
  have hptr := pointerAligned_of (monadicOperand m o) s (fun h => (hr h).2.1) hm
  rcases wordMode_cases m hm with rfl | rfl | rfl | rfl
  · rfl
  · rfl
  · obtain ⟨hc, ha, hf⟩ := hr rfl
    rw [flushOperand, hptr]
    exact effectiveAddress_calm false (monadicOperand 0xE#4 o) s hc rfl rfl (fun _ => ⟨ha, hf⟩)
  · rfl

/-- Settles O34. -/
theorem textFlushResults : Obligations.TextFlushResults := by
  intro s
  refine ⟨⟨quiet s, exec_of_run_ok (show parse .flushi = some (false, .niladic .flushi) from rfl)
      (retire_eq _ _ _ : runFlushi s = _)⟩,
    ⟨quiet s, exec_of_run_ok (show parse .flushp = some (false, .niladic .flushp) from rfl)
      (retire_eq _ _ _ : runFlushp s = _)⟩, ?_⟩
  intro i px m o a n hp hm hv hr ha
  have ha : a = flushedAddress m o s := ha
  refine ⟨quiet s, dropQuad (quadAlign a) s.pfbStale, s.pfbQuads.filter fun q => q != quadAlign (quadAlign a),
    exec_of_run_ok hp (?_ : runFlushpbe px m o n s = _), fun e => ?_, fun q => ?_⟩
  · simp only [runFlushpbe, checkMonadic_word hm, flushOperand_eq m o s hm hr, ← ha, Res.bind_ok,
      flushTarget_physical _ s hv, retire_eq]
  · simp [dropQuad]
  · simp

/-- FLUSHPTE changes the translations only. -/
theorem flushPage_restored (a : Word) (s : State) :
    ((((flushPage a s).setTextTlb s.textTlb).setDataTlb s.dataTlb).setTextNpsr s.textNpsr).setDataNpsr s.dataNpsr =
      s := by
  cases s
  rfl

/-- Settles O35. -/
theorem flushPageEntryResult : Obligations.FlushPageEntryResult := by
  intro i px m o a n s hp hm hr ha
  have ha : a = flushedAddress m o s := ha
  refine ⟨{ quiet s with
      lostTlb := s.dataTlb.filter fun e => e.page == pageOf a, lostNpsr := s.dataNpsr }, flushPage a s,
    exec_of_run_ok hp (?_ : runFlushpte px m o n s = _), fun e => ?_, fun e => ?_, rfl, rfl,
    flushPage_restored a s⟩
  · simp only [runFlushpte, checkMonadic_word hm, flushOperand_eq m o s hm hr, ← ha, Res.bind_ok, retire_eq]
  · simp [flushPage]
  · simp [flushPage]

/-! Writes of registers -/

/-- Settles O55: each register by its equation; PSW and SHAD take the value as written when no hazard is in flight. -/
theorem registerWriteEffects : Obligations.RegisterWriteEffects := by
  intro v s h
  have hpsw : writeRegister .psw v s = s.setPsw (v &&& 0x0001FFF0#32) := by
    simp only [writeRegister, writePsw, mixedPsw_harmless _ _ _ _ h]
    rfl
  have hshad : writeRegister .shad v s = s.setShad (quadAlign v) := by
    simp only [writeRegister, writeShad, mixedShad_harmless _ _ _ h]
  exact ⟨rfl, rfl, rfl, rfl, rfl, rfl, rfl, hpsw, hshad, rfl, rfl, rfl⟩

end Sys2Proof.Machine
end

section
/-! PROOF. The exception and interrupt sequences, which interrupt a boundary takes, the timers, and what a read of PSW may
show (spec/60_exceptions.md, spec/70_reset_and_hazards.md). -/

namespace Sys2Proof.Machine

/-! The sequences -/

theorem recordFault_address (e : Trap) (s : State) (va : Word)
    (h : e = .dataReadFault va ∨ e = .dataWriteFault va) : (recordFault e s).fault = va := by
  rcases h with rfl | rfl <;> rfl

theorem restoreCsp_fault (s : State) : (restoreCsp s).fault = s.fault := by
  unfold restoreCsp; split <;> rfl

/-- The SHAD step moves the register that is the CSP, and no other. -/
theorem restoreCsp_pointers (s : State) :
    (pswCSP s.psw = true → (restoreCsp s).sp = s.shad ∧ (restoreCsp s).isp = s.isp) ∧
    (pswCSP s.psw = false → (restoreCsp s).isp = s.shad ∧ (restoreCsp s).sp = s.sp) := by
  refine ⟨fun h => ?_, fun h => ?_⟩ <;> simp [restoreCsp, h]

theorem pc_store (n : Nat) (va v : Word) (s : State) : (store n va v s).pc = s.pc := by
  unfold store; split <;> rfl

/-- Every exception but the resets is its sequence. -/
theorem takeTrap_sequence {e : Trap} (h1 : e ≠ .internalReset) (h2 : e ≠ .externalReset) (s : State) :
    takeTrap e s = settleSequence (exceptionSequence e s) := by
  cases e <;> first | rfl | exact absurd rfl h1 | exact absurd rfl h2

/-- From the frame stores to the end of an event sequence: PC and PSW are saved below ISP, and the kernel is entered. -/
theorem frame_plain (pc vector : Word) (v w : State) (hp : plain v = true) (hus : usable v = true)
    (h8 : hits (v.isp - 8#32) v = false) (h4 : hits (v.isp - 4#32) v = false) (hv : hits vector v = false)
    (ha : aligned v.isp 4 = true) (hav : aligned vector 4 = true)
    (hw : w = store 4 (v.isp - 4#32) v.psw (store 4 (v.isp - 8#32) pc v)) :
    pushFrame pc v = .ok () w ∧
    enterKernel vector w = .ok () ((((w.setIsp (v.isp - 16#32)).setShad (v.isp - 16#32)).setPc
      (textAlign (load 4 vector w))).setPsw (eventPsw v.psw)) := by
  have hwi : w.isp = v.isp := by rw [hw]; simp only [isp_store]
  have hwp : w.psw = v.psw := by rw [hw]; simp only [psw_store]
  refine ⟨hw ▸ pushFrame_plain pc v hp hus h8 h4 ha, ?_⟩
  rw [enterKernel_plain vector w (by rw [hw]; simp only [plain_store]; exact hp)
    (by rw [hw]; simp only [usable_store]; exact hus) (by rw [hw]; simp only [hits_store]; exact hv) hav, hwi, hwp]

/-- Settles O48: the identifier is stored, then the frame; the kernel is entered through VB + 4. -/
theorem exceptionSequenceSaves : Obligations.ExceptionSequenceSaves := by
  intro e s u w hi he hp hu hf ha hav hw
  obtain ⟨hfp, hfpc, hfvb, hfpl, hfsh, hfi, hfs⟩ := recordFault_same e s
  obtain ⟨hrp, hrpc, hrvb, hrpl⟩ := restoreCsp_same (recordFault e s)
  obtain ⟨hptr1, hptr2⟩ := restoreCsp_pointers (recordFault e s)
  rw [hfp, hfsh, hfi, ← hu] at hptr1
  rw [hfp, hfsh, hfs, ← hu] at hptr2
  rw [← hu, hfp] at hrp
  rw [← hu, hfpc] at hrpc
  rw [← hu, hfvb] at hrvb
  rw [← hu, hfpl, hp] at hrpl
  obtain ⟨hus, h4, h8, h12, hvec⟩ := (frameClear_iff _ _ _).1 hf
  refine ⟨hptr1, hptr2, fun va h => ?_, ?_⟩
  · rw [hu, restoreCsp_fault, recordFault_address e s va h]
  · obtain ⟨hpush, hkern⟩ := frame_plain s.pc (s.vb + 4#32) (store 4 (u.isp - 12#32) e.identifier u) w
      (by rw [plain_store]; exact hrpl) (by rw [usable_store]; exact hus)
      (by rw [isp_store, hits_store]; exact h8) (by rw [isp_store, hits_store]; exact h4)
      (by rw [hits_store]; exact hvec) (by rw [isp_store]; exact ha) hav (by rw [isp_store, psw_store, hrp]; exact hw)
    rw [isp_store, psw_store, hrp] at hkern
    have hwv : w.vb = s.vb := by rw [hw]; simp only [vb_store]; exact hrvb
    rw [takeTrap_sequence hi he]
    simp only [exceptionSequence, ← hu, sequenceWrite_plain _ _ u hrpl hus h12 (aligned_sub _ _ rfl ha), Res.bind_ok,
      pc_store, hrpc, hpush, hwv, hkern]
    rfl

/-- Settles O49: PC and PSW are saved, and the kernel is entered through the vector. -/
theorem interruptSequenceSaves : Obligations.InterruptSequenceSaves := by
  intro vector s u w hp hu hf ha hav hw
  obtain ⟨hrp, hrpc, -, hrpl⟩ := restoreCsp_same s
  rw [← hu] at hrp hrpc
  rw [← hu, hp] at hrpl
  obtain ⟨hus, h4, h8, -, hvec⟩ := (frameClear_iff _ _ _).1 hf
  obtain ⟨hpush, hkern⟩ := frame_plain s.pc vector u w hrpl hus h8 h4 hvec ha hav (by rw [hrp]; exact hw)
  rw [hrp] at hkern
  simp only [interruptSequence, ← hu, hpush, Res.bind_ok, hkern]
  rfl

/-! Interrupts -/

theorem acceptable_iff {level : Nat} (h : level ≠ 0) (s : State) :
    acceptable level s = decide (level < (pswIPL s.psw).toNat) := by
  simp [acceptable, h]

theorem externalDue_eq (il : BitVec 3) (s : State) :
    externalDue il s = decide (1 ≤ il.toNat ∧ il.toNat ≤ 6 ∧ il.toNat < (pswIPL s.psw).toNat) := by
  have key : ∀ il : BitVec 3, (il != 0#3) = decide (1 ≤ il.toNat) ∧ (il != 7#3) = decide (il.toNat ≤ 6) := by decide
  rw [externalDue, (key il).1, (key il).2]
  by_cases h : il.toNat = 0
  · simp [h]
  · rw [acceptable_iff h, Bool.decide_and, Bool.decide_and, Bool.and_assoc]

/-- A timer's request is not taken where its flag or its enable is 0, or its level not acceptable. -/
theorem timersIdle (s : State) (h : (pswIPL s.psw).toNat ≤ 1 ∨ ((s.t1Pending = false ∨ configT1IE s.configEff = false) ∧
    (s.t2Pending = false ∨ configT2IE s.configEff = false))) : timer1Due s = false ∧ timer2Due s = false := by
  simp only [timer1Due, timer2Due, acceptable_iff (show (1 : Nat) ≠ 0 by decide)]
  rcases h with h | ⟨h1, h2⟩
  · have : decide (1 < (pswIPL s.psw).toNat) = false := decide_eq_false (by omega)
    simp [this]
  · rcases h1 with h1 | h1 <;> rcases h2 with h2 | h2 <;> simp [h1, h2]

theorem timer1Due_true {s : State} (h : 1 < (pswIPL s.psw).toNat) (h1 : s.t1Pending = true)
    (h2 : configT1IE s.configEff = true) : timer1Due s = true := by
  simp [timer1Due, acceptable_iff (show (1 : Nat) ≠ 0 by decide), h, h1, h2]

theorem timer2Due_true {s : State} (h : 1 < (pswIPL s.psw).toNat) (h1 : s.t2Pending = true)
    (h2 : configT2IE s.configEff = true) : timer2Due s = true := by
  simp [timer2Due, acceptable_iff (show (1 : Nat) ≠ 0 by decide), h, h1, h2]

theorem timer1Due_false {s : State} (h : s.t1Pending = false ∨ configT1IE s.configEff = false) :
    timer1Due s = false := by
  rcases h with h | h <;> simp [timer1Due, h]

/-- The vector of an external request (R352). -/
theorem vector_toNat (il : BitVec 3) : (16#32 + 4#32 * il.setWidth 32).toNat = 16 + 4 * il.toNat := by
  revert il; decide

/-- With the latch armed and no NMI, the choice is between the external request and the timers. -/
theorem pendingInterrupt_armed {il : BitVec 3} {s : State} (ha : s.nmiArmed = true) (h0 : 1 ≤ il.toNat) :
    pendingInterrupt il s =
      if externalDue il s && (il == 1#3 || !(timer1Due s || timer2Due s)) then some (16#32 + 4#32 * il.setWidth 32, s)
      else if timer1Due s then some (44#32, s.setT1Pending false)
      else if timer2Due s then some (48#32, s.setT2Pending false)
      else none := by
  have hne : il ≠ 0#3 := by rintro rfl; exact absurd h0 (by decide)
  simp [pendingInterrupt, ha, hne]

/-- Settles O50, by which requests are due. -/
theorem interruptAcceptance : Obligations.InterruptAcceptance := by
  intro il s
  have hone : 2 ≤ il.toNat → (il == 1#3) = false := by
    intro h
    refine beq_eq_false_iff_ne.2 ?_
    rintro rfl
    exact absurd h (by decide)
  refine ⟨fun ha => ?_, fun ha h0 => ?_, fun ha h1 h6 hlt hq => ?_, fun ha h2 hlt hp he => ?_,
    fun ha h2 hlt hno hp he => ?_, fun ha h1 hno hq => ?_⟩
  · simp [pendingInterrupt, ha]
  · simp [pendingInterrupt, ha, h0]
  · have hx : externalDue il s = true := by rw [externalDue_eq]; exact decide_eq_true ⟨h1, h6, hlt⟩
    have hq : (il == 1#3 || !(timer1Due s || timer2Due s)) = true := by
      rcases hq with rfl | hq
      · rfl
      · obtain ⟨hd1, hd2⟩ := timersIdle s (.inr hq)
        simp [hd1, hd2]
    exact ⟨_, by rw [pendingInterrupt_armed ha h1, hx, hq]; rfl, vector_toNat il⟩
  · rw [pendingInterrupt_armed ha (by omega), timer1Due_true hlt hp he, hone h2]
    simp
  · rw [pendingInterrupt_armed ha (by omega), timer1Due_false hno, timer2Due_true hlt hp he, hone h2]
    simp
  · have hx : externalDue il s = false := by
      rw [externalDue_eq]
      refine decide_eq_false ?_
      rcases hno with rfl | hno
      · simp
      · omega
    obtain ⟨hd1, hd2⟩ := timersIdle s hq
    rw [pendingInterrupt_armed ha h1, hx, hd1, hd2]
    rfl

/-! The timers -/

theorem overflows_zero (t : Word) : overflows t 0 = false := by
  have := t.isLt
  exact decide_eq_false (by omega)

theorem overflows_one (t : Word) : overflows t 1 = true ↔ t = 0xFFFFFFFF#32 := by
  rw [overflows, decide_eq_true_iff, ← BitVec.toNat_inj]
  have := t.isLt
  simp only [BitVec.toNat_ofNat]
  omega

/-- How many instructions a step counts. -/
def Done.count (d : Done) (s : State) : Nat := if d.completed s then 1 else 0

theorem gateOpen_always (s0 s : State) : gateOpen false s0 s = (true, s) := rfl

theorem eventCount_instructions {d : Done} (hd : d.folded = false) (s : State) :
    eventCount .instructions d s = (d.count s, s) := by
  simp [eventCount, Done.count, hd]

/-- Where a step did not write the timer its events come after it; where it did, freely. -/
theorem countedEarly_spec (wrote : Bool) (n : Nat) (s : State) :
    ∃ early k, countedEarly wrote n s = (early, s.setFree k) ∧ early ≤ n ∧ (wrote = false → early = 0) := by
  cases wrote with
  | false => exact ⟨0, s.free, rfl, Nat.zero_le _, fun _ => rfl⟩
  | true => exact ⟨_, _, rfl, Nat.lt_succ_iff.1 (Nat.mod_lt _ (Nat.succ_pos n)), nofun⟩

theorem Done.count_of_wrote {d : Done} {r : Reg} {s : State} (h : d.wrote r s = true) : d.count s = 1 := by
  rw [Done.wrote, Bool.and_eq_true] at h
  rw [Done.count, if_pos h.1]

/-- Timer1 when it counts instructions at every level. -/
theorem advanceTimer1_instructions {d : Done} {s0 s : State} (hd : d.folded = false)
    (hk : configT1K s.configEff = false) (he : configT1EV s.configEff = true) :
    ∃ early, early ≤ d.count s ∧ (d.wrote .timer1 s = false → early = 0) ∧
      (advanceTimer1 d s0 s).timer1 = s.timer1 + BitVec.ofNat 32 (d.count s - early) ∧
      ((advanceTimer1 d s0 s).t1Pending = true ↔ s.t1Pending = true ∨
        (configT1IE s.configEff = true ∧ (overflows s0.timer1 early || overflows s.timer1 (d.count s - early)) = true)) := by
  obtain ⟨early, k, hc, hle, hw⟩ := countedEarly_spec (d.wrote .timer1 s) (d.count s) s
  have hev : timer1Event s = .instructions := by simp [timer1Event, he]
  refine ⟨early, hle, hw, ?_⟩
  simp only [advanceTimer1, hk, gateOpen_always, if_true, hev, eventCount_instructions hd, hc, State.setTimer1_timer1]
  split
  · rename_i ho
    simp_all
  · rename_i ho
    simp_all

/-- Timer2 when it counts instructions at every level. -/
theorem advanceTimer2_instructions {d : Done} {s0 s : State} (hd : d.folded = false)
    (hk : configT2K s.configEff = false) (he : configT2EV s.configEff = 1#5) :
    ∃ early, early ≤ d.count s ∧ (d.wrote .timer2 s = false → early = 0) ∧
      (advanceTimer2 d s0 s).timer2 = s.timer2 + BitVec.ofNat 32 (d.count s - early) ∧
      ((advanceTimer2 d s0 s).t2Pending = true ↔ s.t2Pending = true ∨
        (configT2IE s.configEff = true ∧ (overflows s0.timer2 early || overflows s.timer2 (d.count s - early)) = true)) := by
  obtain ⟨early, k, hc, hle, hw⟩ := countedEarly_spec (d.wrote .timer2 s) (d.count s) s
  have hev : timer2Event s = .instructions := by simp [timer2Event, he]
  refine ⟨early, hle, hw, ?_⟩
  simp only [advanceTimer2, hk, gateOpen_always, if_true, hev, eventCount_instructions hd, hc, State.setTimer2_timer2]
  split
  · rename_i ho
    simp_all
  · rename_i ho
    simp_all

/-- What a counted step leaves when it did not write the timer. -/
theorem count_unwritten {d : Done} {s : State} {t0 t t' : Word} {p p' ie : Bool} {early : Nat} (h0 : early = 0)
    (ht : t' = t + BitVec.ofNat 32 (d.count s - early))
    (hp : p' = true ↔ p = true ∨ (ie = true ∧ (overflows t0 early || overflows t (d.count s - early)) = true)) :
    t' = t + (if d.completed s then 1#32 else 0#32) ∧
      (p' = true ↔ p = true ∨ (ie = true ∧ d.completed s = true ∧ t = 0xFFFFFFFF#32)) := by
  subst h0
  cases hc : d.completed s <;>
    simp [Done.count, hc, overflows_zero, overflows_one] at ht hp <;> simp [ht, hp]

/-- What it leaves when it wrote the timer: its one event came before the write, or after it. -/
theorem count_written {d : Done} {s : State} {t0 t t' : Word} {p p' ie : Bool} {early : Nat} (h1 : d.count s = 1)
    (hle : early ≤ d.count s) (ht : t' = t + BitVec.ofNat 32 (d.count s - early))
    (hp : p' = true ↔ p = true ∨ (ie = true ∧ (overflows t0 early || overflows t (d.count s - early)) = true)) :
    (t' = t ∧ (p' = true ↔ p = true ∨ (ie = true ∧ t0 = 0xFFFFFFFF#32))) ∨
      (t' = t + 1#32 ∧ (p' = true ↔ p = true ∨ (ie = true ∧ t = 0xFFFFFFFF#32))) := by
  rw [h1] at hle ht hp
  obtain rfl | rfl : early = 0 ∨ early = 1 := by omega
  · right; simpa [overflows_zero, overflows_one] using And.intro ht hp
  · left; simpa [overflows_zero, overflows_one] using And.intro ht hp

/-- TADD and TSUB that come out with F set store nothing. -/
theorem Done.wrote_tagged {d : Done} {px : Bool} {op : TagOp} {f : Form} (hv : d.view = some (px, .dyadic (.tagged op) f))
    {s : State} (hF : s.psw.getLsbD flagF = true) (r : Reg) : d.wrote r s = false := by
  simp only [Done.wrote, hv, stored, hF, Bool.not_true, Bool.and_false]

/-- Settles O59: by the events each timer counts, and how many of them come before a write. -/
theorem timersCountInstructions : Obligations.TimersCountInstructions := by
  intro d s0 s hd hk1 hk2
  refine ⟨fun reg px op f hv hF => Done.wrote_tagged hv hF reg, fun he hw => ?_, fun he hw => ?_, fun he hw => ?_,
    fun he hw => ?_⟩
  · obtain ⟨early, -, h0, ht, hp⟩ := advanceTimer1_instructions (s0 := s0) hd hk1 he
    exact count_unwritten (h0 hw) ht hp
  · obtain ⟨early, -, h0, ht, hp⟩ := advanceTimer2_instructions (s0 := s0) hd hk2 he
    exact count_unwritten (h0 hw) ht hp
  · obtain ⟨early, hle, -, ht, hp⟩ := advanceTimer1_instructions (s0 := s0) hd hk1 he
    exact count_written (Done.count_of_wrote hw) hle ht hp
  · obtain ⟨early, hle, -, ht, hp⟩ := advanceTimer2_instructions (s0 := s0) hd hk2 he
    exact count_written (Done.count_of_wrote hw) hle ht hp

/-! Reads of PSW -/

/-- Each bit of a mix is one word's or the other's, and the other's only inside the mask. -/
theorem drawMix_bit (mask a b : Word) (s : State) (k : Nat) :
    ((drawMix mask a b s).1.getLsbD k = a.getLsbD k ∨
      (mask.getLsbD k = true ∧ (drawMix mask a b s).1.getLsbD k = b.getLsbD k)) ∧
    (drawMix mask a b s).2.psw = s.psw := by
  unfold drawMix
  split
  · exact ⟨.inl rfl, rfl⟩
  · refine ⟨?_, rfl⟩
    simp only [getLsbD_mergeBits, BitVec.getLsbD_and]
    split
    · rename_i h
      exact .inr ⟨(Bool.and_eq_true_iff.1 h).1, rfl⟩
    · exact .inl rfl

/-- PSW as read through a window of hazard records. -/
theorem stalePsw_bit (w : List Recent) (p : Word) (s : State) (k : Nat) :
    ((stalePsw w p s).1.getLsbD k = p.getLsbD k ∨
      ∃ r ∈ w, r.flags.getLsbD k = true ∧ (stalePsw w p s).1.getLsbD k = r.pswBefore.getLsbD k) ∧
    (stalePsw w p s).2.psw = s.psw := by
  induction w generalizing p s with
  | nil => exact ⟨.inl rfl, rfl⟩
  | cons r rest ih =>
    obtain ⟨hbit, hpsw⟩ := drawMix_bit r.flags p r.pswBefore s k
    obtain ⟨ihbit, ihpsw⟩ := ih (drawMix r.flags p r.pswBefore s).1 (drawMix r.flags p r.pswBefore s).2
    refine ⟨?_, ihpsw.trans hpsw⟩
    rcases ihbit with h | ⟨q, hq, hf, hb⟩
    · rcases hbit with h2 | ⟨hf, h2⟩
      · exact .inl (h.trans h2)
      · exact .inr ⟨r, List.mem_cons_self, hf, h.trans h2⟩
    · exact .inr ⟨q, List.mem_cons_of_mem _ hq, hf, hb⟩

/-- Settles O56: `stalePsw_bit` over the last two records. -/
theorem pswReadHazard : Obligations.PswReadHazard := fun s k => stalePsw_bit s.recent s.psw s k

end Sys2Proof.Machine
end

section
/-! PROOF. What the operations compute, against exact arithmetic (spec/40_arithmetic.md, spec/42_logical.md,
spec/45_shift.md). -/

namespace Sys2Proof.Machine

/-! Overflow -/

/-- An exact result overflows when the 32-bit signed number it wraps to is another. -/
theorem signedOverflow_iff (i : Int) : signedOverflow i = true ↔ i.bmod (2 ^ 32) ≠ i := by
  rw [signedOverflow, decide_eq_true_iff, Int.bmod_def]
  norm_num
  split <;> omega

theorem overflowAdd_iff (a b : Word) : overflowAdd a b = true ↔ (b + a).toInt ≠ b.toInt + a.toInt := by
  rw [BitVec.toInt_add]
  exact signedOverflow_iff _

theorem overflowSub_iff (a b : Word) : overflowSub a b = true ↔ (b - a).toInt ≠ b.toInt - a.toInt := by
  rw [BitVec.toInt_sub]
  exact signedOverflow_iff _

theorem overflowMul_iff (a b : Word) : overflowMul a b = true ↔ (b * a).toInt ≠ b.toInt * a.toInt := by
  rw [BitVec.toInt_mul]
  exact signedOverflow_iff _

/-! Addition, subtraction and multiplication -/

theorem toNat_add_carry (a b : Word) :
    (b + a).toNat + (if carryAdd a b then 4294967296 else 0) = b.toNat + a.toNat := by
  have ha := a.isLt
  have hb := b.isLt
  simp only [BitVec.toNat_add, carryAdd, decide_eq_true_eq]
  split <;> omega

theorem toNat_sub_borrow (a b : Word) :
    (b - a).toNat + a.toNat = b.toNat + (if borrowSub a b then 4294967296 else 0) := by
  have ha := a.isLt
  have hb := b.isLt
  simp only [BitVec.toNat_sub, borrowSub, decide_eq_true_eq]
  split <;> omega

theorem carryMul_iff (a b : Word) : carryMul a b = true ↔ (b * a).toNat ≠ b.toNat * a.toNat := by
  rw [carryMul, decide_eq_true_iff, BitVec.toNat_mul]
  omega

/-! Unsigned division -/

theorem toNat_udiv (a b : Word) : (BitVec.ofNat 32 (b.toNat / a.toNat)).toNat = b.toNat / a.toNat := by
  rw [BitVec.toNat_ofNat, Nat.mod_eq_of_lt (lt_of_le_of_lt (Nat.div_le_self _ _) b.isLt)]

theorem toNat_urem (a b : Word) : (BitVec.ofNat 32 (b.toNat % a.toNat)).toNat = b.toNat % a.toNat := by
  rw [BitVec.toNat_ofNat, Nat.mod_eq_of_lt (lt_of_le_of_lt (Nat.mod_le _ _) b.isLt)]

theorem toNat_pos_of_ne {a : Word} (h : a ≠ 0#32) : 0 < a.toNat :=
  Nat.pos_of_ne_zero fun h0 => h (BitVec.eq_of_toNat_eq h0)

/-! Signed division -/

/-- The exact quotient that DIV delivers where it fits (R193). -/
def exactQuotient (a b : Int) : Int := if Config.divFloors then b.fdiv a else b.tdiv a

theorem natAbs_fmod_lt {a b : Int} (h : a ≠ 0) : (b.fmod a).natAbs < a.natAbs := by
  rcases lt_or_gt_of_ne h with h | h
  · have hneg := Int.neg_fmod_neg (-b) (-a)
    rw [neg_neg, neg_neg] at hneg
    have h1 := Int.fmod_nonneg_of_pos (-b) (neg_pos.2 h)
    have h2 := Int.fmod_lt_of_pos (-b) (neg_pos.2 h)
    omega
  · have h1 := Int.fmod_nonneg_of_pos b h
    have h2 := Int.fmod_lt_of_pos b h
    omega

/-- Whichever way it is rounded, the quotient leaves a remainder smaller than the divisor. -/
theorem exactQuotient_remainder {a b : Int} (h : a ≠ 0) : (b - exactQuotient a b * a).natAbs < a.natAbs := by
  unfold exactQuotient
  split
  · rw [mul_comm, ← Int.fmod_def]
    exact natAbs_fmod_lt h
  · rw [mul_comm, ← Int.tmod_def, Int.natAbs_tmod]
    exact Nat.mod_lt _ (Int.natAbs_pos.2 h)

/-- A quotient of 32-bit numbers with such a remainder fits, but for -2^31 by -1. -/
theorem quotient_fits {a b q : Int} (hr : (b - q * a).natAbs < a.natAbs) (h1 : -2147483648 ≤ b) (h2 : b ≤ 2147483647)
    (hex : ¬ (b = -2147483648 ∧ a = -1)) : -2147483648 ≤ q ∧ q ≤ 2147483647 := by
  rcases lt_or_ge a 0 with ha | ha
  · refine ⟨?_, ?_⟩
    · by_contra hq
      have : (-q) * (-a) ≥ 2147483649 * (-a) := by nlinarith
      have : (-q) * (-a) = q * a := by ring
      omega
    · by_contra hq
      have h3 : q * (-a) ≥ 2147483648 * (-a) := by nlinarith
      have h4 : q * (-a) = -(q * a) := by ring
      have h5 : a = -1 := by omega
      subst h5
      omega
  · refine ⟨?_, ?_⟩
    · by_contra hq
      have : (-q) * a ≥ 2147483649 * a := by nlinarith
      have : (-q) * a = -(q * a) := by ring
      omega
    · by_contra hq
      have : q * a ≥ 2147483648 * a := by nlinarith
      have h5 : a = 1 ∨ 2 ≤ a := by omega
      rcases h5 with rfl | h5 <;> omega

theorem toInt_range (w : Word) : -2147483648 ≤ w.toInt ∧ w.toInt ≤ 2147483647 := by
  have h1 := BitVec.le_toInt w
  have h2 := BitVec.toInt_lt (x := w)
  norm_num at h1 h2
  omega

theorem bmod_of_range {i : Int} (h1 : -2147483648 ≤ i) (h2 : i ≤ 2147483647) : i.bmod (2 ^ 32) = i := by
  by_contra h
  have := (signedOverflow_iff i).2 h
  rw [signedOverflow, decide_eq_true_iff] at this
  omega

theorem divOverflows_iff (a b : Word) : divOverflows a b = true ↔ b = 0x80000000#32 ∧ a = 0xFFFFFFFF#32 := by
  simp [divOverflows]

theorem divOverflows_of_toInt {a b : Word} (h : b.toInt = -2147483648 ∧ a.toInt = -1) : divOverflows a b = true :=
  (divOverflows_iff a b).2 ⟨BitVec.eq_of_toInt_eq (h.1.trans (by decide)), BitVec.eq_of_toInt_eq (h.2.trans (by decide))⟩

/-- Where it does not overflow, DIV's word is the exact quotient, and REM's the remainder it leaves. -/
theorem quotient_exact {a b : Word} (ha : a ≠ 0#32) (ho : divOverflows a b = false) :
    b.toInt = (quotient a b).toInt * a.toInt + (b - quotient a b * a).toInt ∧
      (b - quotient a b * a).toInt.natAbs < a.toInt.natAbs := by
  have ha0 : a.toInt ≠ 0 := fun h => ha (BitVec.eq_of_toInt_eq (h.trans (by decide)))
  have hr := exactQuotient_remainder (b := b.toInt) ha0
  obtain ⟨hb1, hb2⟩ := toInt_range b
  obtain ⟨ha1, ha2⟩ := toInt_range a
  have hex : ¬ (b.toInt = -2147483648 ∧ a.toInt = -1) := fun h => by
    rw [divOverflows_of_toInt h] at ho; cases ho
  obtain ⟨hq1, hq2⟩ := quotient_fits hr hb1 hb2 hex
  have hq : (quotient a b).toInt = exactQuotient a.toInt b.toInt := by
    have : quotient a b = BitVec.ofInt 32 (exactQuotient a.toInt b.toInt) := by
      rw [quotient, if_neg (by rw [ho]; exact Bool.false_ne_true)]; rfl
    rw [this, BitVec.toInt_ofInt, bmod_of_range hq1 hq2]
  have hrem : (b - quotient a b * a).toInt = b.toInt - exactQuotient a.toInt b.toInt * a.toInt := by
    rw [BitVec.toInt_sub, BitVec.toInt_mul, hq, Int.sub_bmod_bmod, bmod_of_range] <;> omega
  rw [hq, hrem]
  exact ⟨by ring, hr⟩

/-! Shifts -/

theorem shiftCount_eq (a : Word) : shiftCount a = a.toNat % 32 := by
  simp [shiftCount, BitVec.extractLsb'_toNat]

theorem getLsbD_and_comm (a b : Word) (k : Nat) : (b &&& a).getLsbD k = (a.getLsbD k && b.getLsbD k) := by
  rw [BitVec.getLsbD_and, Bool.and_comm]

theorem getLsbD_or_comm (a b : Word) (k : Nat) : (b ||| a).getLsbD k = (a.getLsbD k || b.getLsbD k) := by
  rw [BitVec.getLsbD_or, Bool.or_comm]

theorem getLsbD_xor_comm (a b : Word) (k : Nat) : (b ^^^ a).getLsbD k = (a.getLsbD k != b.getLsbD k) := by
  rw [BitVec.getLsbD_xor, Bool.xor_comm]

/-- Settles O10, operation by operation. -/
theorem operationsAreExact : Obligations.OperationsAreExact := by
  intro a b
  refine ⟨⟨_, rfl, getLsbD_and_comm a b⟩, ⟨_, rfl, getLsbD_or_comm a b⟩, ⟨_, rfl, getLsbD_xor_comm a b⟩,
    BitVec.toNat_add b a, getLsbD_and_comm a b, getLsbD_or_comm a b,
    ⟨_, _, _, rfl, toNat_add_carry a b, overflowAdd_iff a b⟩, ⟨_, _, _, rfl, toNat_sub_borrow a b, overflowSub_iff a b⟩,
    ⟨_, _, _, rfl, BitVec.toNat_mul b a, carryMul_iff a b, overflowMul_iff a b⟩, fun ha => ?_, fun ha => ?_,
    ⟨_, rfl, ?_⟩, ⟨_, rfl, ?_⟩, ⟨_, rfl, ?_⟩⟩
  · refine ⟨_, _, rfl, rfl, ?_, ?_⟩
    · rw [toNat_udiv, toNat_urem, mul_comm]
      exact (Nat.div_add_mod _ _).symm
    · rw [toNat_urem]
      exact Nat.mod_lt _ (toNat_pos_of_ne ha)
  · refine ⟨_, _, _, rfl, rfl, divOverflows_iff a b, quotient_exact ha, fun ho => ?_⟩
    obtain ⟨rfl, rfl⟩ := (divOverflows_iff a b).1 ho
    exact ⟨rfl, by decide⟩
  · rw [BitVec.toNat_shiftLeft, Nat.shiftLeft_eq, shiftCount_eq]
  · rw [BitVec.toInt_sshiftRight, Int.shiftRight_eq_div_pow, shiftCount_eq]
    norm_cast
  · rw [BitVec.toNat_ushiftRight, Nat.shiftRight_eq_div_pow, shiftCount_eq]

end Sys2Proof.Machine
end

section
/-! PROOF. Operands that end an instruction before it does anything, instructions that stop by name, and bus errors
(spec/30_encoding.md, spec/60_exceptions.md). -/

namespace Sys2Proof.Machine

/-! What a two-operand instruction meets first -/

/-- What an operation does with its second operand. -/
def DyOp.use (op : DyOp) : DstUse :=
  match op with
  | .binary _ toAcc => if toAcc then .reads else .updates
  | .compare _ => .reads
  | .mov => .writes
  | _ => .updates

/-- The operations that begin by finding both operands' places. -/
def DyOp.general (op : DyOp) : Prop := op ≠ .mova ∧ op ≠ .dqm ∧ op ≠ .unimplemented

theorem DyOp.run_eq_openForm {op : DyOp} (h : op.general) (px : Bool) (f : Form) (s : State) :
    ∃ k, op.run px f s = (openForm px op.use f s).bind k := by
  obtain ⟨h1, h2, h3⟩ := h
  cases op with
  | mova => exact absurd rfl h1
  | dqm => exact absurd rfl h2
  | unimplemented => exact absurd rfl h3
  | _ => exact ⟨_, rfl⟩

theorem DyOp.use_writing {op : DyOp} (h : op.general) : op.use.writing = op.writes := by
  obtain ⟨h1, h2, h3⟩ := h
  cases op with
  | mova => exact absurd rfl h1
  | dqm => exact absurd rfl h2
  | unimplemented => exact absurd rfl h3
  | binary op acc => cases acc <;> rfl
  | _ => rfl

theorem DyOp.use_reading {op : DyOp} (h : op ≠ .mov) : op.use.reading = true := by
  cases op with
  | mov => exact absurd rfl h
  | binary op acc => cases acc <;> rfl
  | _ => rfl

theorem DyOp.exec_openForm_trap {op : DyOp} (h : op.general) {i : Instr} {px : Bool} {f : Form} {s t : State} {e : Trap}
    (hp : parse i = some (px, .dyadic op f)) (ht : openForm px op.use f s = .trap e t) : exec i s = takeTrap e t := by
  obtain ⟨k, hk⟩ := DyOp.run_eq_openForm h px f s
  exact exec_of_run_trap hp (hk.trans (by rw [ht, Res.bind_trap]))

theorem openForm_checkForm_trap {px : Bool} {u : DstUse} {f : Form} {s t : State} {e : Trap}
    (h : checkForm px u f s = .trap e t) : openForm px u f s = .trap e t := by
  simp only [openForm, h, Res.bind_trap]

theorem checkForm_illegal {px : Bool} {u : DstUse} {f : Form} (s : State)
    (h : legalMode px f.src.mode = false ∨ legalMode px f.dst.mode = false ∨ (u.writing && isImmediate f.dst) = true) :
    checkForm px u f s = .trap .illegalInstruction s := by
  rcases h with h | h | h <;> simp only [checkForm, h, Bool.not_false, Bool.true_or, Bool.or_true, if_true]

/-- Modes that the instruction may have. -/
structure LegalForm (px : Bool) (u : DstUse) (f : Form) : Prop where
  src : legalMode px f.src.mode = true
  dst : legalMode px f.dst.mode = true
  imm : (u.writing && isImmediate f.dst) = false

theorem DyOp.legalForm {op : DyOp} (h : op.general) {px : Bool} {f : Form} (hs : legalMode px f.src.mode = true)
    (hd : legalMode px f.dst.mode = true) (hi : op.writes = true → isImmediate f.dst = false) :
    LegalForm px op.use f := by
  refine ⟨hs, hd, ?_⟩
  rw [DyOp.use_writing h]
  cases hw : op.writes
  · rfl
  · exact hi hw

theorem checkForm_missing {px : Bool} {u : DstUse} {f : Form} (hl : LegalForm px u f) (s : State)
    (h : (missingRegister px f.src || missingRegister px f.dst) = true) :
    checkForm px u f s = .trap .unimplementedRegister s := by
  simp only [checkForm, hl.src, hl.dst, hl.imm, h, Bool.not_true, Bool.or_self, Bool.false_eq_true, if_false, if_true]

theorem checkForm_twoRegisters {px : Bool} {u : DstUse} {f : Form} (hl : LegalForm px u f) (s : State)
    (hm : missingRegister px f.src = false ∧ missingRegister px f.dst = false)
    (h : (isRegister px f.src && isRegister px f.dst && u.reading) = true) :
    checkForm px u f s = .refuse .twoRegistersRead := by
  simp only [checkForm, hl.src, hl.dst, hl.imm, hm.1, hm.2, h, Bool.not_true, Bool.or_self, Bool.false_eq_true, if_false,
    if_true]

theorem checkForm_ok {px : Bool} {u : DstUse} {f : Form} (hl : LegalForm px u f) (s : State)
    (hm : missingRegister px f.src = false ∧ missingRegister px f.dst = false)
    (h : (isRegister px f.src && isRegister px f.dst) = false) : checkForm px u f s = .ok () s := by
  simp only [checkForm, hl.src, hl.dst, hl.imm, hm.1, hm.2, h, Bool.not_true, Bool.or_self, Bool.false_and,
    Bool.false_eq_true, if_false]

/-- An operand with an address off its size is no register. -/
theorem isRegister_of_misaligned {px : Bool} {n : Nat} {o : Operand} {s : State} (h : staticAligned px n o s = false) :
    isRegister px o = false := by
  cases hr : isRegister px o with
  | false => rfl
  | true =>
    have hk := (modeKind_register px o.mode).2 (by simpa [isRegister] using hr)
    simp [staticAligned, hk] at h

theorem isRegister_of_indirect {px : Bool} {o : Operand} (h : modeKind px o.mode = some .indirect) :
    isRegister px o = false := by
  cases hr : isRegister px o with
  | false => rfl
  | true =>
    rw [(modeKind_register px o.mode).2 (by simpa [isRegister] using hr)] at h
    cases h

theorem openForm_misaligned {px : Bool} {u : DstUse} {f : Form} {s : State} (hc : checkForm px u f s = .ok () s)
    (h : (!staticAligned px (modeSize px f.src.mode) f.src s || !staticAligned px (modeSize px f.dst.mode) f.dst s) =
      true) : openForm px u f s = .trap .alignmentFault s := by
  simp only [openForm, hc, Res.bind_ok, h, raiseIf_true, Res.bind_trap]

/-! Illegal modes -/

theorem legalMode_of_word (px : Bool) (m : BitVec 4) (h : wordMode m = true) : legalMode px m = true := by
  revert px m; decide

theorem dqmWords_of_illegal (px : Bool) (m : BitVec 4) (h : legalMode px m = false) : dqmWords px m = none := by
  revert px m; decide

theorem runMova_illegal {px : Bool} {f : Form} (s : State) (h : movaLegal px f = false) :
    runMova px f s = .trap .illegalInstruction s := by
  simp only [runMova, h, Bool.not_false, raiseIf_true, Res.bind_trap]

theorem runDqm_illegal {px : Bool} {f : Form} (s : State)
    (h : dqmWords px f.dst.mode = none ∨ wordMode f.src.mode = false) :
    runDqm px f s = .trap .illegalInstruction s := by
  cases hn : dqmWords px f.dst.mode with
  | none => simp only [runDqm, hn]
  | some n =>
    have hw := h.resolve_left (by rw [hn]; exact nofun)
    simp only [runDqm, hn, hw, Bool.not_false, raiseIf_true, Res.bind_trap]

/-- A two-operand instruction with a mode its table does not have. -/
theorem dyadic_illegalMode {op : DyOp} {px : Bool} {f : Form} {s : State} (hu : op = .unimplemented → px = true)
    (h : legalMode px f.src.mode = false ∨ legalMode px f.dst.mode = false) {i : Instr}
    (hp : parse i = some (px, .dyadic op f)) : exec i s = takeTrap .illegalInstruction s := by
  have hsrc : legalMode px f.src.mode = false → wordMode f.src.mode = false := fun hl => by
    by_contra hw
    rw [legalMode_of_word px _ (Bool.not_eq_false _ ▸ hw)] at hl
    cases hl
  by_cases hma : op = .mova
  · subst hma
    refine exec_of_run_trap hp (runMova_illegal s ?_)
    rcases h with h | h
    · simp [movaLegal, hsrc h]
    · simp [movaLegal, h]
  by_cases hdq : op = .dqm
  · subst hdq
    exact exec_of_run_trap hp (runDqm_illegal s (h.symm.imp (dqmWords_of_illegal px _) hsrc))
  by_cases hun : op = .unimplemented
  · obtain rfl := hu hun
    subst hun
    refine exec_of_run_trap hp (?_ : runUnimplementedDyadic true f s = _)
    have hb : (true && (!legalMode true f.src.mode || !legalMode true f.dst.mode)) = true := by
      rcases h with h | h <;> simp [h]
    simp only [runUnimplementedDyadic, hb, raiseIf_true, Res.bind_trap]
  · exact DyOp.exec_openForm_trap ⟨hma, hdq, hun⟩ hp (openForm_checkForm_trap (checkForm_illegal s (h.imp id .inl)))

theorem dyadic_immediateDestination {op : DyOp} {px : Bool} {f : Form} {s : State} (hw : op.writes = true)
    (hi : isImmediate f.dst = true) {i : Instr} (hp : parse i = some (px, .dyadic op f)) :
    exec i s = takeTrap .illegalInstruction s := by
  by_cases hma : op = .mova
  · subst hma
    exact exec_of_run_trap hp (runMova_illegal s (by simp [movaLegal, hi]))
  by_cases hdq : op = .dqm
  · subst hdq
    have hm : f.dst.mode = 0xF#4 := by simpa [isImmediate] using hi
    exact exec_of_run_trap hp (runDqm_illegal s (.inl (by rw [hm]; cases px <;> rfl)))
  · have hg : op.general := ⟨hma, hdq, by rintro rfl; cases hw⟩
    refine DyOp.exec_openForm_trap hg hp (openForm_checkForm_trap (checkForm_illegal s (.inr (.inr ?_))))
    rw [DyOp.use_writing hg, hw, hi]
    rfl

theorem checkMonadic_illegal {m : BitVec 4} (h : wordMode m = false) (s : State) :
    checkMonadic m s = .trap .illegalInstruction s := by
  simp [checkMonadic, h]

theorem popLegal_of_nonword {m : BitVec 4} (h : wordMode m = false) (o : Word) : popLegal m o = false := by
  have : (m == 0xD#4) = false := beq_eq_false_iff_ne.2 (by rintro rfl; cases h)
  simp [popLegal, this]

theorem runReturn_illegal {m : BitVec 4} {o : Word} (h : popLegal m o = false) (s : State) :
    runReturn m o s = .trap .illegalInstruction s := by
  simp only [runReturn, h, Bool.not_false, raiseIf_true, Res.bind_trap]

theorem runPopn_illegal {m : BitVec 4} {o : Word} (h : popLegal m o = false) (px : Bool) (n : Nat) (s : State) :
    runPopn px m o n s = .trap .illegalInstruction s := by
  simp only [runPopn, h, Bool.not_false, raiseIf_true, Res.bind_trap]

theorem runJmpIf_illegal {m : BitVec 4} (h : (m == 0xE#4 || m == 0xF#4) = false) (b px : Bool) (o : Word) (n : Nat)
    (s : State) : runJmpIf b px m o n s = .trap .illegalInstruction s := by
  simp only [runJmpIf, h, Bool.not_false, raiseIf_true, Res.bind_trap]

theorem runEnter_illegal {m : BitVec 4} {o : Word} (h : (!wordMode m || (m == 0xD#4 && !o.getLsbD 31)) = true)
    (px : Bool) (n : Nat) (s : State) : runEnter px m o n s = .trap .illegalInstruction s := by
  have hc : checkEnter m o n s = .trap .illegalInstruction s := by rw [checkEnter, if_pos h]
  simp only [runEnter, hc, Res.bind_trap]

/-- A one-operand instruction with a mode that is no word mode. -/
theorem monadic_nonword (op : MonOp) (px : Bool) {m : BitVec 4} (o : Word) (n : Nat) (s : State)
    (h : wordMode m = false) : op.run px m o n s = .trap .illegalInstruction s := by
  have hc := checkMonadic_illegal h s
  cases op with
  | ret => exact runReturn_illegal (popLegal_of_nonword h o) s
  | popn => exact runPopn_illegal (popLegal_of_nonword h o) px n s
  | jmpIf b =>
    refine runJmpIf_illegal ?_ b px o n s
    rw [Bool.or_eq_false_iff, beq_eq_false_iff_ne, beq_eq_false_iff_ne]
    exact ⟨(fun e => by rw [e] at h; cases h), fun e => by rw [e] at h; cases h⟩
  | enter => exact runEnter_illegal (by rw [h]; rfl) px n s
  | kcall => show runKcall px m o n s = _; simp only [runKcall, hc, Res.bind_trap]
  | call => show runCall px m o n s = _; simp only [runCall, hc, Res.bind_trap]
  | jmp => show runJmp m o s = _; simp only [runJmp, hc, Res.bind_trap]
  | catching => show runCatch px m o n s = _; simp only [runCatch, hc, Res.bind_trap]
  | ldraa => show runLdraa px m o n s = _; simp only [runLdraa, hc, Res.bind_trap]
  | flushpte => show runFlushpte px m o n s = _; simp only [runFlushpte, hc, Res.bind_trap]
  | flushpbe => show runFlushpbe px m o n s = _; simp only [runFlushpbe, hc, Res.bind_trap]
  | unimplemented => show runUnimplementedMonadic m s = _; simp only [runUnimplementedMonadic, hc, Res.bind_trap]

theorem popLegal_of_illegal {m : BitVec 4} {o : Word} (h : m ≠ 0xD#4 ∨ o.getLsbD 31 = true) : popLegal m o = false := by
  rcases h with h | h
  · rw [popLegal, beq_eq_false_iff_ne.2 h]; rfl
  · rw [popLegal, h]; exact Bool.and_false _

/-- Settles O42, kind by kind. -/
theorem illegalModesTrap : Obligations.IllegalModesTrap := by
  intro i px v s hp hv
  obtain ⟨op, f, rfl, hu, h⟩ | ⟨f, rfl, h⟩ | ⟨f, rfl, h⟩ | ⟨op, f, rfl, hw, hi⟩ | ⟨op, m, o, n, rfl, h⟩ |
    ⟨b, m, o, n, rfl, h⟩ | ⟨op, m, o, n, rfl, hop, h⟩ | ⟨o, n, rfl, h⟩ := hv
  · exact dyadic_illegalMode hu h hp
  · exact exec_of_run_trap hp (runDqm_illegal s h)
  · refine exec_of_run_trap hp (runMova_illegal s ?_)
    rcases h with h | h | h | h
    · simp [movaLegal, h]
    · simp [movaLegal, h]
    · have hw : wordMode f.src.mode = false := by
        have : px = true ∧ f.src.mode = 0x7#4 := by simpa [isRegister] using h
        rw [this.2]; rfl
      simp [movaLegal, hw]
    · simp [movaLegal, h]
  · exact dyadic_immediateDestination hw hi hp
  · exact exec_of_run_trap hp (monadic_nonword op px o n s h)
  · exact exec_of_run_trap hp (runJmpIf_illegal (by rcases h with rfl | rfl <;> rfl) b px o n s)
  · rcases hop with rfl | rfl
    · exact exec_of_run_trap hp (runReturn_illegal (popLegal_of_illegal h) s)
    · exact exec_of_run_trap hp (runPopn_illegal (popLegal_of_illegal h) px n s)
  · exact exec_of_run_trap hp (runEnter_illegal (by rw [h]; rfl) px n s)

/-! Operands that cannot be reached -/

theorem memRead_misaligned (acc : Access) {va : Word} {n : Nat} (s : State) (h : aligned va n = false) :
    memRead acc va n s = .trap .alignmentFault s := by
  simp only [memRead, checkAccess, h, Bool.not_false, raiseIf_true, Res.bind_trap]

theorem missingRegister_of (o : Operand) (hm : o.mode = 0x7#4) (h : Reg.ofField o.field.value = none) :
    missingRegister true o = true := by
  simp [missingRegister, isRegister, hm, h]

theorem flowTarget_misaligned {m : BitVec 4} {o : Word} {s : State} (hm : wordMode m = true)
    (h : flowAligned m o s = false) : flowTarget m o s = .trap .alignmentFault s := by
  rcases wordMode_cases m hm with rfl | rfl | rfl | rfl
  · exact memRead_misaligned _ s h
  · exact memRead_misaligned _ s h
  · cases h
  · cases h

theorem frameTarget_misaligned {m : BitVec 4} {o : Word} {s : State}
    (h : (m = 0xC#4 ∧ aligned o 4 = false) ∨ (m = 0xE#4 ∧ aligned (csp s + o) 4 = false)) :
    frameTarget m o s = .trap .alignmentFault s := by
  obtain ⟨rfl, h⟩ | ⟨rfl, h⟩ := h
  · exact memRead_misaligned _ s h
  · exact memRead_misaligned _ s h

theorem checkFrame_ok {s : State} (h : pswCSP s.psw = true → s.sp ≤ s.msp) : checkFrame s = .ok () s := by
  have : (pswCSP s.psw && decide (s.msp < s.sp)) = false := by
    cases hc : pswCSP s.psw
    · rfl
    · simpa using h hc
  simp [checkFrame, this]

theorem flushOperand_misaligned {o : Word} {s : State} (h : aligned (csp s + o) 4 = false) :
    flushOperand 0xE#4 o s = .trap .alignmentFault s := by
  have hp : pointerAligned (monadicOperand 0xE#4 o) s = false := h
  simp only [flushOperand, hp, Bool.not_false, raiseIf_true, Res.bind_trap]

theorem runMova_misaligned {px : Bool} {f : Form} {s : State} (hl : movaLegal px f = true)
    (h : (f.src.mode = 0xE#4 ∧ aligned (stackAddress f.src s) 4 = false) ∨
      staticAligned px (modeSize px f.dst.mode) f.dst s = false) : runMova px f s = .trap .alignmentFault s := by
  have hb : (!pointerAligned f.src s || !staticAligned px (modeSize px f.dst.mode) f.dst s) = true := by
    rcases h with ⟨hm, h⟩ | h
    · have hk : modeKind false 0xE#4 = some .indirect := rfl
      simp [pointerAligned, hm, hk, h]
    · simp [h]
  simp only [runMova, hl, Bool.not_true, raiseIf_false, Res.bind_ok, hb, raiseIf_true, Res.bind_trap]

theorem runDqm_misaligned {px : Bool} {f : Form} {n : Nat} {s : State} (hn : dqmWords px f.dst.mode = some n)
    (hw : wordMode f.src.mode = true)
    (h : staticAligned px (4 * n) f.src s = false ∨ staticAligned px (4 * n) f.dst s = false) :
    runDqm px f s = .trap .alignmentFault s := by
  have hb : (!staticAligned px (4 * n) f.src s || !staticAligned px (4 * n) f.dst s) = true := by
    rcases h with h | h <;> simp [h]
  simp only [runDqm, hn, hw, Bool.not_true, raiseIf_false, Res.bind_ok, hb, raiseIf_true, Res.bind_trap]

/-- An operand of KCALL that is off a word, by its address or by its pointer. -/
theorem wordOperand_misaligned {m : BitVec 4} {o : Word} {s : State}
    (h : staticAligned false 4 (monadicOperand m o) s = false ∨
      (m = 0xE#4 ∧ calm s = true ∧ aligned (csp s + o) 4 = true ∧ firm (csp s + o) s = true ∧
        aligned (load 4 (csp s + o) s) 4 = false)) : wordOperand m o s = .trap .alignmentFault s := by
  rcases h with h | ⟨rfl, hc, ha, hf, hoff⟩
  · simp only [wordOperand, h, Bool.not_false, raiseIf_true, Res.bind_trap]
  · have hs : staticAligned false 4 (monadicOperand 0xE#4 o) s = true := ha
    simp only [wordOperand, hs, Bool.not_true, raiseIf_false, Res.bind_ok,
      locate_indirectOff false 4 (monadicOperand 0xE#4 o) s hc hs ⟨rfl, hf, hoff⟩, Res.bind_trap]

/-- ENTER's operand that is off a word: the translations the last instructions invalidated may be in use (R447). -/
theorem runEnter_misaligned {px : Bool} {m : BitVec 4} {o : Word} {n : Nat} {s : State}
    (hw : pswCSP s.psw = true → s.sp ≤ s.msp)
    (h : (m = 0xC#4 ∧ aligned o 4 = false) ∨ (m = 0xE#4 ∧ aligned (csp s + o) 4 = false)) :
    runEnter px m o n s =
      .trap .alignmentFault (dropLost (restoreLost s).1 (restoreLost s).2.1 (restoreLost s).2.2) := by
  have hcheck : checkEnter m o n s = .ok () s := by
    obtain ⟨rfl, -⟩ | ⟨rfl, -⟩ := h
    · exact checkEnter_legal s rfl rfl
    · exact checkEnter_legal s rfl rfl
  have hcsp : csp (restoreLost s).2.2 = csp s := by rw [restoreLost_state s]; rfl
  rw [← hcsp] at h
  simp only [runEnter, hcheck, checkFrame_ok hw, Res.bind_ok, enterWith, frameTarget_misaligned h, Res.bind_trap,
    Res.after]

/-- What such a restoration and its end leave changed. -/
theorem dropLost_restoreLost (s u : State) (hu : u = dropLost (restoreLost s).1 (restoreLost s).2.1 (restoreLost s).2.2) :
    u = ((s.setDataTlb u.dataTlb).setDataNpsr u.dataNpsr).setFree u.free := by
  have hd := dropLost_state (restoreLost s).1 (restoreLost s).2.1 (restoreLost s).2.2
  rw [← hu] at hd
  have hr := restoreLost_state s
  generalize (restoreLost s).2.2 = r at hd hr
  have hf : u.free = r.free := by rw [hd]; rfl
  rw [hf]
  calc u = (r.setDataTlb u.dataTlb).setDataNpsr u.dataNpsr := hd
    _ = _ := by rw [hr]; rfl

theorem dyadic_misaligned {op : DyOp} (hg : op.general) {i : Instr} {px : Bool} {f : Form} {s : State}
    (hp : parse i = some (px, .dyadic op f)) (hl : LegalForm px op.use f)
    (hm : missingRegister px f.src = false ∧ missingRegister px f.dst = false)
    (h : staticAligned px (modeSize px f.src.mode) f.src s = false ∨
      staticAligned px (modeSize px f.dst.mode) f.dst s = false) : exec i s = takeTrap .alignmentFault s := by
  have hreg : (isRegister px f.src && isRegister px f.dst) = false := by
    rcases h with h | h <;> simp [isRegister_of_misaligned h]
  refine DyOp.exec_openForm_trap hg hp (openForm_misaligned (checkForm_ok hl s hm hreg) ?_)
  rcases h with h | h <;> simp [h]

theorem dyadic_indirectOff {op : DyOp} (hg : op.general) {i : Instr} {px : Bool} {f : Form} {s : State}
    (hp : parse i = some (px, .dyadic op f)) (hc : calm s = true) (hl : LegalForm px op.use f)
    (hm : missingRegister px f.src = false ∧ missingRegister px f.dst = false)
    (hs : staticAligned px (modeSize px f.src.mode) f.src s = true)
    (hd : staticAligned px (modeSize px f.dst.mode) f.dst s = true)
    (h : IndirectOff px (modeSize px f.src.mode) f.src s ∨
      (operandReady px (modeSize px f.src.mode) f.src s = true ∧ IndirectOff px (modeSize px f.dst.mode) f.dst s)) :
    exec i s = takeTrap .alignmentFault s := by
  have hreg : (isRegister px f.src && isRegister px f.dst) = false := by
    rcases h with h | ⟨-, h⟩ <;> simp [isRegister_of_indirect h.1]
  refine DyOp.exec_openForm_trap hg hp ?_
  rcases h with h | ⟨hr, h⟩
  · simp only [openForm, checkForm_ok hl s hm hreg, Res.bind_ok, hs, hd, Bool.not_true, Bool.or_self, raiseIf_false,
      locate_indirectOff px _ _ s hc hs h, Res.bind_trap]
  · simp only [openForm, checkForm_ok hl s hm hreg, Res.bind_ok, hs, hd, Bool.not_true, Bool.or_self, raiseIf_false,
      locate_calm px _ _ s hc hr, locate_indirectOff px _ _ s hc hd h, Res.bind_trap]

theorem movaLegal_src {px : Bool} {f : Form} (h : movaLegal px f = true) :
    wordMode f.src.mode = true ∧ isImmediate f.src = false := by
  simp only [movaLegal, Bool.and_eq_true, Bool.not_eq_true'] at h
  obtain ⟨⟨⟨⟨hw, hi⟩, -⟩, -⟩, -⟩ := h
  exact ⟨hw, hi⟩

/-- Settles O43, clause by clause. -/
theorem unreachableOperandTraps : Obligations.UnreachableOperandTraps := by
  refine ⟨?_, ?_, ?_, ?_, ?_, ?_, ?_, ?_, ?_, ?_, ?_, ?_⟩
  · intro i op f s hp h1 h2 h3 hs hd hi hr
    have hg : op.general := ⟨h1, h2, h3⟩
    refine DyOp.exec_openForm_trap hg hp
      (openForm_checkForm_trap (checkForm_missing (DyOp.legalForm hg hs hd hi) s ?_))
    obtain ⟨hm, hr⟩ | ⟨hm, hr⟩ := hr
    · simp [missingRegister_of _ hm hr]
    · simp [missingRegister_of _ hm hr]
  · intro i op px f s hp h1 h2 h3 hs hd hm1 hm2 hi h
    have hg : op.general := ⟨h1, h2, h3⟩
    exact dyadic_misaligned hg hp (DyOp.legalForm hg hs hd hi) ⟨hm1, hm2⟩ h
  · intro i px f s hp hl h
    exact exec_of_run_trap hp (runMova_misaligned hl h)
  · intro i px f n s hp hn hw h
    exact exec_of_run_trap hp (runDqm_misaligned hn hw h)
  · intro i px op m o n s hp hop hm h
    have hf := flowTarget_misaligned hm h
    obtain rfl | rfl | rfl := hop
    · refine exec_of_run_trap hp (?_ : runJmp m o s = _)
      simp only [runJmp, checkMonadic_word hm, Res.bind_ok, hf, Res.bind_trap]
    · refine exec_of_run_trap hp (?_ : runCall px m o n s = _)
      simp only [runCall, checkMonadic_word hm, Res.bind_ok, h, Bool.not_false, raiseIf_true, Res.bind_trap]
    · refine exec_of_run_trap hp (?_ : runLdraa px m o n s = _)
      simp only [runLdraa, checkMonadic_word hm, Res.bind_ok, hf, Res.bind_trap]
  · intro i px m o n s hp hm h
    refine exec_of_run_trap hp (?_ : runKcall px m o n s = _)
    simp only [runKcall, checkMonadic_word hm, Res.bind_ok, wordOperand_misaligned h, Res.bind_trap]
  · intro i px o n s hp ho h
    refine exec_of_run_trap hp (?_ : runReturn 0xD#4 o s = _)
    simp only [runReturn, popLegal_of ho, Bool.not_true, raiseIf_false, Res.bind_ok, memRead_misaligned _ s h,
      Res.bind_trap]
  · intro i px op m o n s hp h
    have hm : wordMode m = true := by obtain ⟨rfl, -⟩ | ⟨rfl, -⟩ := h <;> rfl
    refine ⟨?_, ?_⟩
    · rintro rfl hcsp hle
      refine exec_of_run_trap hp (?_ : runCatch px m o n s = _)
      simp only [runCatch, checkMonadic_word hm, Res.bind_ok, hcsp, Bool.not_true, Bool.false_eq_true, if_false,
        checkFrame_ok (fun _ => hle), frameTarget_misaligned h, Res.bind_trap]
    · rintro rfl hle
      refine ⟨_, dropLost_restoreLost s _ rfl, fun hr => ?_, exec_of_run_trap hp (runEnter_misaligned hle h)⟩
      rw [restoreLost_harmless s hr, dropLost_nil]
  · intro i px op o n s hp hop h
    have hf := flushOperand_misaligned h
    have hm : checkMonadic 0xE#4 s = .ok () s := rfl
    obtain rfl | rfl := hop
    · refine exec_of_run_trap hp (?_ : runFlushpte px 0xE#4 o n s = _)
      simp only [runFlushpte, hm, Res.bind_ok, hf, Res.bind_trap]
    · refine exec_of_run_trap hp (?_ : runFlushpbe px 0xE#4 o n s = _)
      simp only [runFlushpbe, hm, Res.bind_ok, hf, Res.bind_trap]
  · intro i op px f s hp hc h1 h2 h3 hs hd hm1 hm2 hi has had h
    have hg : op.general := ⟨h1, h2, h3⟩
    exact dyadic_indirectOff hg hp hc (DyOp.legalForm hg hs hd hi) ⟨hm1, hm2⟩ has had h
  · intro i px f s hp hc hl hptr hs h
    obtain ⟨hw, hi⟩ := movaLegal_src hl
    refine exec_of_run_trap hp (?_ : runMova px f s = _)
    simp only [runMova, hl, pointerAligned_of f.src s (fun h => (hptr h).1) hw, hs, Bool.not_true, Bool.or_self,
      raiseIf_false, Res.bind_ok, effectiveAddress_calm px f.src s hc hw hi hptr, locate_indirectOff px _ _ s hc hs h,
      Res.bind_trap]
  · intro i px f n s hp hc hn hw hs hd h
    refine exec_of_run_trap hp (?_ : runDqm px f s = _)
    rcases h with h | ⟨hr, h⟩
    · simp only [runDqm, hn, hw, hs, hd, Bool.not_true, Bool.or_self, raiseIf_false, Res.bind_ok,
        locate_indirectOff px _ _ s hc hs h, Res.bind_trap]
    · simp only [runDqm, hn, hw, hs, hd, Bool.not_true, Bool.or_self, raiseIf_false, Res.bind_ok,
        locate_calm px _ _ s hc hr, locate_indirectOff px _ _ s hc hd h, Res.bind_trap]

/-! Accesses with no stack cache, no translation and nothing to prefetch -/

theorem useCache_off (acc : Access) (va : Word) {s : State} (h : configSC s.configEff = false) :
    useCache acc va s = (false, s) := by
  simp [useCache, hits, h]

/-- A read is its bus transaction. -/
theorem memRead_bus (acc : Access) {va : Word} {n : Nat} {s : State} (hv : s.vpEff = false)
    (hc : configSC s.configEff = false) (hm : mayPrefetch s = false) (ha : aligned va n = true) :
    memRead acc va n s = (physRead false .ioBusFault va s).bind fun w s =>
      .ok (laneGet n (laneAddr (little s) n va) w) s := by
  simp only [memRead, checkAccess_ok va n s ha, Res.bind_ok, useCache_off acc va hc, Bool.false_eq_true, if_false,
    dataAddress_idle _ _ _ _ s hv hm, readAhead_idle _ s hm]

/-- A store is its bus transaction. -/
theorem memWrite_bus (acc : Access) {va : Word} {n : Nat} (v : Word) {s : State} (hv : s.vpEff = false)
    (hc : configSC s.configEff = false) (hm : mayPrefetch s = false) (ha : aligned va n = true) :
    memWrite acc va n v s = (takenWords acc va 1 s).bind fun k s => .ok () (commit (.phys va k) n v s) := by
  simp only [memWrite, prepWrite, checkAccess_ok va n s ha, Res.bind_ok, useCache_off acc va hc, Bool.false_eq_true,
    if_false, dataAddress_idle _ _ _ _ s hv hm, claim, readAhead_idle _ s hm]
  cases takenWords acc va 1 s <;> rfl

theorem physRead_busError {locked : Bool} {e : Trap} {pa : Word} {s u : State}
    (h : busTurn locked pa s = (some .busError, u)) : physRead locked e pa s = .trap e u := by
  simp only [physRead, h]

theorem physRead_hreset {locked : Bool} {e : Trap} {pa : Word} {s u : State} (h : busTurn locked pa s = (none, u)) :
    physRead locked e pa s = .trap .externalReset u := by
  simp only [physRead, h]

theorem physRead_silent {locked : Bool} {e : Trap} {pa : Word} {s : State}
    (h : (busTurn locked pa s).1 = some .silent) : physRead locked e pa s = .halt .busNeverAnswers := by
  simp only [physRead, h]

theorem takenWords_busError {acc : Access} {pa : Word} {s u : State}
    (h : busTurn acc.locked pa s = (some .busError, u)) (n : Nat) :
    takenWords acc pa (n + 1) s = if acc.precise then .trap .ioBusFault u else .ok 0 u := by
  simp only [takenWords, h]

theorem takenWords_hreset {acc : Access} {pa : Word} {s u : State} (h : busTurn acc.locked pa s = (none, u)) (n : Nat) :
    takenWords acc pa (n + 1) s = .trap .externalReset u := by
  simp only [takenWords, h]

/-- JMP through an absolute pointer is that read. -/
theorem runJmp_absolute (o : Word) (s : State) : runJmp 0xC#4 o s =
    (memRead (plainAccess s) o 4 s).bind fun t u => retire t (quiet s) u := rfl

/-! Stops by name -/

theorem Reg.not_missing {o : Operand} (h : (Reg.ofField o.field.value).isSome = true) (px : Bool) :
    missingRegister px o = false := by
  rw [missingRegister, Option.isNone_eq_false_iff.2 h, Bool.and_false]

/-- Settles O46, stop by stop. -/
theorem namedStops : Obligations.NamedStops := by
  refine ⟨fun p s => rfl, ?_, ?_, ?_, ?_⟩
  · intro i op f s hp h1 h2 h3 h4 hm1 hm2 hr1 hr2
    have hg : op.general := ⟨h2, h3, h4⟩
    obtain ⟨k, hk⟩ := DyOp.run_eq_openForm hg true f s
    have hl : LegalForm true op.use f :=
      DyOp.legalForm hg (by rw [hm1]; rfl) (by rw [hm2]; rfl) (fun _ => by rw [isImmediate, hm2]; rfl)
    have hreg : (isRegister true f.src && isRegister true f.dst && op.use.reading) = true := by
      rw [DyOp.use_reading h1, isRegister, isRegister, hm1, hm2]; rfl
    refine exec_of_run_refuse hp (hk.trans ?_)
    rw [openForm]
    simp only [checkForm_twoRegisters hl s ⟨Reg.not_missing hr1 _, Reg.not_missing hr2 _⟩ hreg, Res.bind_refuse]
  · intro i px o s hp ho hle
    refine exec_of_run_refuse hp (?_ : runEnter px 0xD#4 o 3 s = _)
    have hc : checkEnter 0xD#4 o 3 s = .refuse .enterOffsetTooSmall := by
      rw [checkEnter, if_neg (by rw [ho]; decide), if_pos (by simpa using hle)]
    simp only [runEnter, hc, Res.bind_refuse]
  · intro i px op m o n s hp hop hcsp hlt
    have hf : checkFrame s = .refuse .stackCacheUnpredictable := by
      rw [checkFrame, if_pos (by rw [hcsp, decide_eq_true hlt]; rfl)]
    obtain ⟨rfl, hm, hl⟩ | ⟨rfl, hm⟩ := hop
    · refine exec_of_run_refuse hp (?_ : runEnter px m o n s = _)
      simp only [runEnter, checkEnter_legal s hm hl, Res.bind_ok, hf, Res.bind_refuse]
    · refine exec_of_run_refuse hp (?_ : runCatch px m o n s = _)
      simp only [runCatch, checkMonadic_word hm, Res.bind_ok, hcsp, Bool.not_true, Bool.false_eq_true, if_false, hf,
        Res.bind_refuse]
  · intro i px o n s hp hv hc hm ha hb
    rw [exec_of_parse s hp]
    show settle (runJmp 0xC#4 o s) = _
    rw [runJmp_absolute, memRead_bus _ hv hc hm ha, physRead_silent hb]
    rfl

/-! Bus errors -/

theorem setWriteFaults_self (s : State) : s.setWriteFaults s.writeFaults = s := rfl

/-- Settles O47, clause by clause. -/
theorem busErrorOutcomes : Obligations.BusErrorOutcomes := by
  refine ⟨?_, ?_, ?_, ?_, ?_, ?_, ?_, ?_, ?_, ?_⟩
  · intro i px o n s u hp hv hc hm ha hb
    refine exec_of_run_trap hp (?_ : runJmp 0xC#4 o s = _)
    rw [runJmp_absolute, memRead_bus _ hv hc hm ha, physRead_busError hb]
    rfl
  · intro acc n va s u hv hc hm ha hb
    rw [memRead_bus _ hv hc hm ha, physRead_busError hb, Res.bind_trap]
  · intro acc n va v s u hv hc hm ha
    refine ⟨fun hb => ?_, fun hb => ?_, rfl⟩
    · rw [memRead_bus _ hv hc hm ha, physRead_hreset hb, Res.bind_trap]
    · rw [memWrite_bus _ v hv hc hm ha, takenWords_hreset hb, Res.bind_trap]
  · intro acc n va v s u hv hc hm ha hb
    rw [memWrite_bus _ v hv hc hm ha, takenWords_busError hb]
    cases acc.precise <;> rfl
  · intro off s u hv hc hm ha hb
    simp only [unimplementedSequence]
    rw [memWrite_bus _ s.pc hv hc hm ha, takenWords_busError (acc := (stackAccess s).exact) hb]
    rfl
  · intro il s hp hw ht
    simp only [runBoundary, hp, reportsWrite, if_neg hw, ht, if_true, reportWrite]
  · intro il off s u hp hw
    simp only [runBoundary, hp, bne_iff_ne.2 hw, if_true]
  · intro t s0 s u hf ht hw
    simp only [runNext, hf, bne_iff_ne.2 ht, bne_iff_ne.2 hw, Bool.and_self, if_true]
  · intro i s0 s u hf hs hw
    simp only [runNext, hf, hs, bne_iff_ne.2 hw, Bool.and_self, if_true]
  · intro d s0 s t he hh hw hle
    have hb : (t.ended == .event && !hresetEnded s t && (s.writeFaults != 0 || t.writeFaults != 0)) = true := by
      rw [he, hh, bne_iff_ne.2 hw]; rfl
    simp only [conclude, hb, if_true, Nat.max_eq_left hle, setWriteFaults_self]

end Sys2Proof.Machine
end

section
/-! PROOF. The decoder and the encoder (spec/30_encoding.md). A parcel is its fields, as digits of its number; each table
of the decoder, read by the opcode field, is undone by the encoder, and the other way round. -/

namespace Sys2Proof

/-! Parcels as numbers -/

theorem toNat_append_digits {m n : Nat} (a : BitVec m) (b : BitVec n) : (a ++ b).toNat = a.toNat * 2 ^ n + b.toNat := by
  rw [BitVec.toNat_append, ← Nat.shiftLeft_add_eq_or_of_lt b.isLt, Nat.shiftLeft_eq]

theorem toNat_extract {w : Nat} (x : BitVec w) (start len : Nat) :
    (x.extractLsb' start len).toNat = x.toNat / 2 ^ start % 2 ^ len := by
  rw [BitVec.extractLsb'_toNat, Nat.shiftRight_eq_div_pow]

theorem getLsbD_eq_digit {w : Nat} (x : BitVec w) (i : Nat) : x.getLsbD i = decide (x.toNat / 2 ^ i % 2 = 1) := by
  rw [BitVec.getLsbD, Nat.testBit_eq_decide_div_mod_eq]

theorem wideParcel_toNat (t : BitVec 2) (op : BitVec 6) (sm dm : BitVec 4) :
    (wideParcel t op sm dm).toNat = t.toNat * 16384 + op.toNat * 256 + sm.toNat * 16 + dm.toNat := by
  have h1 := toNat_append_digits (t ++ op ++ sm) dm
  have h2 := toNat_append_digits (t ++ op) sm
  have h3 := toNat_append_digits t op
  have h : (wideParcel t op sm dm).toNat = (t ++ op ++ sm ++ dm).toNat := rfl
  omega

theorem fieldParcel_toNat (op : BitVec 5) (f : BitVec 10) : (fieldParcel op f).toNat = op.toNat * 1024 + f.toNat := by
  have h1 := toNat_append_digits ((0#1 : BitVec 1) ++ op) f
  have h2 := toNat_append_digits (0#1 : BitVec 1) op
  have h : (fieldParcel op f).toNat = ((0#1 : BitVec 1) ++ op ++ f).toNat := rfl
  have h0 : (0#1 : BitVec 1).toNat = 0 := rfl
  omega

theorem shortParcel_eq (op s d : BitVec 5) : shortParcel op s d = fieldParcel op (s ++ d) := by
  refine BitVec.eq_of_toNat_eq ?_
  have h1 := toNat_append_digits ((0#1 : BitVec 1) ++ op ++ s) d
  have h2 := toNat_append_digits ((0#1 : BitVec 1) ++ op) s
  have h3 := toNat_append_digits (0#1 : BitVec 1) op
  have h4 := toNat_append_digits s d
  have h : (shortParcel op s d).toNat = ((0#1 : BitVec 1) ++ op ++ s ++ d).toNat := rfl
  have h0 : (0#1 : BitVec 1).toNat = 0 := rfl
  rw [fieldParcel_toNat]
  omega

theorem stackParcel_eq (sub : BitVec 2) (f : BitVec 8) : stackParcel sub f = fieldParcel 0x02#5 (sub ++ f) := by
  refine BitVec.eq_of_toNat_eq ?_
  have h1 := toNat_append_digits ((0x02#6 : BitVec 6) ++ sub) f
  have h2 := toNat_append_digits (0x02#6 : BitVec 6) sub
  have h4 := toNat_append_digits sub f
  have h : (stackParcel sub f).toNat = ((0x02#6 : BitVec 6) ++ sub ++ f).toNat := rfl
  have h0 : (0x02#6 : BitVec 6).toNat = 2 := rfl
  have h5 : (0x02#5 : BitVec 5).toNat = 2 := rfl
  rw [fieldParcel_toNat]
  omega

/-! Fields of a parcel -/

theorem wideParcel_opcode (t : BitVec 2) (op : BitVec 6) (sm dm : BitVec 4) :
    (wideParcel t op sm dm).extractLsb' 8 6 = op := by
  refine BitVec.eq_of_toNat_eq ?_
  rw [toNat_extract, wideParcel_toNat]
  omega

theorem wideParcel_source (t : BitVec 2) (op : BitVec 6) (sm dm : BitVec 4) :
    (wideParcel t op sm dm).extractLsb' 4 4 = sm := by
  refine BitVec.eq_of_toNat_eq ?_
  rw [toNat_extract, wideParcel_toNat]
  omega

theorem wideParcel_destination (t : BitVec 2) (op : BitVec 6) (sm dm : BitVec 4) :
    (wideParcel t op sm dm).extractLsb' 0 4 = dm := by
  refine BitVec.eq_of_toNat_eq ?_
  rw [toNat_extract, wideParcel_toNat]
  omega

/-- The length bits of a first parcel. -/
theorem wideParcel_length (t : BitVec 2) (op : BitVec 6) (sm dm : BitVec 4) :
    (wideParcel t op sm dm).getLsbD 15 = t.getLsbD 1 ∧ (wideParcel t op sm dm).getLsbD 14 = t.getLsbD 0 := by
  simp only [getLsbD_eq_digit, wideParcel_toNat]
  refine ⟨decide_eq_decide.2 ?_, decide_eq_decide.2 ?_⟩ <;> omega

/-- A parcel is its fields. -/
theorem wideParcel_eta {p : Parcel} {t : BitVec 2} (h1 : p.getLsbD 15 = t.getLsbD 1) (h0 : p.getLsbD 14 = t.getLsbD 0) :
    wideParcel t (p.extractLsb' 8 6) (p.extractLsb' 4 4) (p.extractLsb' 0 4) = p := by
  refine BitVec.eq_of_toNat_eq ?_
  simp only [getLsbD_eq_digit, decide_eq_decide] at h0 h1
  rw [wideParcel_toNat, toNat_extract, toNat_extract, toNat_extract]
  omega

theorem fieldParcel_opcode (op : BitVec 5) (f : BitVec 10) : (fieldParcel op f).extractLsb' 10 5 = op := by
  refine BitVec.eq_of_toNat_eq ?_
  rw [toNat_extract, fieldParcel_toNat]
  omega

/-- A part of the ten-bit field. -/
theorem fieldParcel_part (op : BitVec 5) (f : BitVec 10) {start len : Nat} (h : start + len ≤ 10) :
    (fieldParcel op f).extractLsb' start len = f.extractLsb' start len := by
  refine BitVec.eq_of_getLsbD_eq fun i hi => ?_
  rw [BitVec.getLsbD_extractLsb', BitVec.getLsbD_extractLsb']
  refine congrArg _ ?_
  have hk : start + i < 10 := by omega
  generalize start + i = k at hk
  rw [getLsbD_eq_digit, getLsbD_eq_digit, fieldParcel_toNat]
  refine decide_eq_decide.2 ?_
  interval_cases k <;> omega

theorem fieldParcel_short (op : BitVec 5) (f : BitVec 10) : (fieldParcel op f).getLsbD 15 = false := by
  rw [getLsbD_eq_digit, fieldParcel_toNat]
  exact decide_eq_false (by omega)

/-- A parcel whose bit 15 is 0 is its fields. -/
theorem fieldParcel_eta {p : Parcel} (h : p.getLsbD 15 = false) :
    fieldParcel (p.extractLsb' 10 5) (p.extractLsb' 0 10) = p := by
  refine BitVec.eq_of_toNat_eq ?_
  rw [getLsbD_eq_digit, decide_eq_false_iff_not] at h
  rw [fieldParcel_toNat, toNat_extract, toNat_extract]
  omega

theorem append_high {m n : Nat} (a : BitVec m) (b : BitVec n) : (a ++ b).extractLsb' n m = a := by
  refine BitVec.eq_of_toNat_eq ?_
  rw [toNat_extract, toNat_append_digits, Nat.mul_comm, Nat.mul_add_div (Nat.two_pow_pos n), Nat.div_eq_of_lt b.isLt,
    Nat.add_zero, Nat.mod_eq_of_lt a.isLt]

theorem append_low {m n : Nat} (a : BitVec m) (b : BitVec n) : (a ++ b).extractLsb' 0 n = b := by
  refine BitVec.eq_of_toNat_eq ?_
  rw [toNat_extract, toNat_append_digits, Nat.pow_zero, Nat.div_one, Nat.mul_comm, Nat.mul_add_mod,
    Nat.mod_eq_of_lt b.isLt]

theorem append_eta {m n : Nat} (f : BitVec (m + n)) : f.extractLsb' n m ++ f.extractLsb' 0 n = f := by
  refine BitVec.eq_of_toNat_eq ?_
  have hlt : f.toNat / 2 ^ n < 2 ^ m := Nat.div_lt_of_lt_mul (by rw [Nat.mul_comm, ← Nat.pow_add]; exact f.isLt)
  rw [toNat_append_digits, toNat_extract, toNat_extract, Nat.pow_zero, Nat.div_one, Nat.mod_eq_of_lt hlt]
  exact Nat.div_add_mod' _ _

/-! Five- and three-parcel instructions -/

theorem fieldParcels_append (a b : Parcel) : fieldParcels (a ++ b) = [a, b] := by
  rw [fieldParcels, show (a ++ b).extractLsb' 16 16 = a from append_high a b,
    show (a ++ b).extractLsb' 0 16 = b from append_low a b]

theorem fieldParcels_eta (o : BitVec 32) : o.extractLsb' 16 16 ++ o.extractLsb' 0 16 = o := append_eta (m := 16) (n := 16) o

/-- The encoder undoes the five-parcel table. -/
theorem encode_decodeFive (p : Parcel) (a b : BitVec 32) :
    encode (decodeFive p a b) = encodeFive (p.extractLsb' 8 6) (p.extractLsb' 4 4) (p.extractLsb' 0 4) a b := by
  unfold decodeFive
  generalize p.extractLsb' 8 6 = op
  obtain ⟨⟨n, hn⟩⟩ := op
  dsimp only
  interval_cases n <;> rfl

theorem encode_decodeMonadic (sub m : BitVec 4) (o : BitVec 32) :
    encode (decodeMonadic sub m o) = encodeMonadic sub m o := by
  obtain ⟨⟨n, hn⟩⟩ := sub
  interval_cases n <;> rfl

/-- The encoder undoes the three-parcel table. -/
theorem encode_decodeThree (p a b : Parcel) :
    encode (decodeThree p a b) = encodeThree (p.extractLsb' 8 6) (p.extractLsb' 4 4) (p.extractLsb' 0 4) a b := by
  unfold decodeThree
  generalize p.extractLsb' 8 6 = op
  obtain ⟨⟨n, hn⟩⟩ := op
  dsimp only
  interval_cases n
  · show encode (decodeMonadic _ _ _) = _
    rw [encode_decodeMonadic, encodeMonadic, fieldParcels_append]
    rfl
  all_goals rfl

/-! One-parcel instructions -/

theorem shortParcel_eta (op : BitVec 5) (f : BitVec 10) :
    shortParcel op (f.extractLsb' 5 5) (f.extractLsb' 0 5) = fieldParcel op f := by
  rw [shortParcel_eq, show f.extractLsb' 5 5 ++ f.extractLsb' 0 5 = f from append_eta (m := 5) (n := 5) f]

theorem stackParcel_eta (f : BitVec 10) :
    stackParcel (f.extractLsb' 8 2) (f.extractLsb' 0 8) = fieldParcel 0x02#5 f := by
  rw [stackParcel_eq, show f.extractLsb' 8 2 ++ f.extractLsb' 0 8 = f from append_eta (m := 2) (n := 8) f]

/-- A niladic's parcel, by the leading digits of its subcode. -/
theorem niladicParcel {m k : Nat} (c : BitVec m) (x : BitVec k) {p : Parcel} (n : BitVec 10)
    (hp : p.toNat = (c ++ x).toNat) (h : c.toNat * 2 ^ k + x.toNat = 11264 + n.toNat) : [p] = [fieldParcel 0x0B#5 n] := by
  have hop : (0x0B#5 : BitVec 5).toNat = 11 := rfl
  refine congrArg (fun p => [p]) (BitVec.eq_of_toNat_eq ?_)
  rw [hp, toNat_append_digits, h, fieldParcel_toNat, hop]

/-- The encoder undoes the table of niladics. -/
theorem encode_decodeNiladic {n : BitVec 10} {i : Instr} (h : decodeNiladic n = some i) :
    encode i = [fieldParcel 0x0B#5 n] := by
  have hn := n.isLt
  unfold decodeNiladic at h
  simp only [getLsbD_eq_digit, decide_eq_true_eq] at h
  split at h
  · cases h
    exact niladicParcel 0x17#7 _ n rfl (by rw [toNat_extract, BitVec.toNat_ofNat]; omega)
  split at h
  · cases h
    exact niladicParcel 0x2D#8 _ n rfl (by rw [toNat_extract, BitVec.toNat_ofNat]; omega)
  split at h
  · cases h
    exact niladicParcel 0x59#9 _ n rfl (by rw [toNat_extract, BitVec.toNat_ofNat]; omega)
  split at h
  · cases h
    exact niladicParcel 0xB1#10 _ n rfl (by rw [toNat_extract, BitVec.toNat_ofNat]; omega)
  split at h
  · cases h
    exact niladicParcel 0x161#11 _ n rfl (by rw [toNat_extract, BitVec.toNat_ofNat]; omega)
  split at h
  · cases h
    exact niladicParcel 0x2C1#12 _ n rfl (by rw [toNat_extract, BitVec.toNat_ofNat]; omega)
  have h16 : n.toNat < 16 := by omega
  have hext : (n.extractLsb' 0 4).toNat = n.toNat := by rw [toNat_extract]; omega
  have hlow : (n.extractLsb' 0 2).toNat = n.toNat % 4 := by rw [toNat_extract]; omega
  rw [hext] at h
  have hpar : ∀ k, n.toNat = k → [BitVec.ofNat 16 (11264 + k)] = [fieldParcel 0x0B#5 n] := by
    rintro k rfl
    refine congrArg (fun p => [p]) (BitVec.eq_of_toNat_eq ?_)
    rw [fieldParcel_toNat, BitVec.toNat_ofNat, BitVec.toNat_ofNat]
    omega
  split at h
  case h_1 => cases h
  case h_13 =>
    cases h
    have hc : (0xB03#14 : BitVec 14).toNat = 2819 := rfl
    simp only [imp_false] at *
    exact niladicParcel 0xB03#14 _ n rfl (by rw [hlow, hc]; omega)
  all_goals
    rename_i hk
    cases h
    exact hpar _ hk


theorem ite_some_eq_none {α : Type} {c : Prop} [Decidable c] {a : α} {e : Option α} :
    (if c then some a else e) = none ↔ ¬ c ∧ e = none := by
  split <;> simp [*]

/-- Only the subcode of the CPU parcel is no niladic. -/
theorem decodeNiladic_none {n : BitVec 10} (h : decodeNiladic n = none) : n = 0#10 := by
  have hn := n.isLt
  simp only [decodeNiladic, getLsbD_eq_digit, decide_eq_true_eq, ite_some_eq_none] at h
  obtain ⟨h9, h8, h7, h6, h5, h4, hrow⟩ := h
  have hext : (n.extractLsb' 0 4).toNat = n.toNat := by rw [toNat_extract]; omega
  rw [hext] at hrow
  clear hext
  generalize hk : n.toNat = k at hrow
  split at hrow
  case h_1 => exact BitVec.eq_of_toNat_eq hk
  all_goals cases hrow

/-- The encoder undoes the one-parcel table. -/
theorem encode_decodeOne {p : Parcel} {i : Instr} (hp : p.getLsbD 15 = false) (h : decodeOne p = some i) :
    encode i = [p] := by
  rw [← fieldParcel_eta hp] at h ⊢
  generalize p.extractLsb' 10 5 = op at h ⊢
  generalize p.extractLsb' 0 10 = f at h ⊢
  have hf : ∀ start len, start + len ≤ 10 → (fieldParcel op f).extractLsb' start len = f.extractLsb' start len :=
    fun _ _ hl => fieldParcel_part op f hl
  have hall : f.extractLsb' 0 10 = f := BitVec.eq_of_toNat_eq (by rw [toNat_extract]; omega)
  rw [decodeOne, fieldParcel_opcode, hf 0 10 (by omega), hf 0 8 (by omega), hf 5 5 (by omega), hf 0 5 (by omega),
    hf 8 2 (by omega), hall] at h
  clear hf hall hp
  have hshort := shortParcel_eta op f
  have hstack := stackParcel_eta f
  obtain ⟨⟨n, hn⟩⟩ := op
  obtain hlo | rfl | ⟨hlo, hhi⟩ | rfl | rfl | rfl | hlo :
      n < 2 ∨ n = 2 ∨ (2 < n ∧ n < 10) ∨ n = 10 ∨ n = 11 ∨ n = 12 ∨ 12 < n := by omega
  · interval_cases n <;> cases h <;> rfl
  · rw [← show fieldParcel _ f = fieldParcel 0x02#5 f from rfl] at hstack
    generalize f.extractLsb' 8 2 = sub at h hstack
    obtain ⟨⟨k, hk⟩⟩ := sub
    interval_cases k <;> cases h <;> exact congrArg (fun p => [p]) hstack
  · interval_cases n <;> cases h <;> rfl
  · cases h
    rw [← hshort]
    rfl
  · exact encode_decodeNiladic h
  · cases h
    rfl
  · interval_cases n <;> cases h <;> rw [← hshort] <;> rfl

/-- Every parcel of a one-parcel instruction selects a row, but the CPU parcel (R164). -/
theorem decodeOne_none {p : Parcel} (hp : p.getLsbD 15 = false) (h : decodeOne p = none) : p = cpuParcel := by
  rw [← fieldParcel_eta hp] at h ⊢
  generalize p.extractLsb' 10 5 = op at h ⊢
  generalize p.extractLsb' 0 10 = f at h ⊢
  have hall : (fieldParcel op f).extractLsb' 0 10 = f := by
    rw [fieldParcel_part op f (by omega)]
    exact BitVec.eq_of_toNat_eq (by rw [toNat_extract]; omega)
  rw [decodeOne, fieldParcel_opcode, hall] at h
  clear hall hp
  obtain ⟨⟨n, hn⟩⟩ := op
  obtain hlo | rfl | ⟨hlo, hhi⟩ | rfl | hlo : n < 2 ∨ n = 2 ∨ (2 < n ∧ n < 11) ∨ n = 11 ∨ 11 < n := by omega
  · interval_cases n <;> cases h
  · generalize BitVec.extractLsb' 8 2 _ = sub at h
    obtain ⟨⟨k, hk⟩⟩ := sub
    interval_cases k <;> cases h
  · interval_cases n <;> cases h
  · rw [decodeNiladic_none h]
    exact (by decide : fieldParcel 0x0B#5 0#10 = cpuParcel)
  · interval_cases n <;> cases h

/-! Unprefixed instructions -/

theorem wellFormed_of_unprefixed {i : Instr} (h : i.unprefixed = true) : i.wellFormed = true := by
  cases i with
  | cpuWide => cases h
  | cpuShort => cases h
  | _ => rfl

theorem unprefixed_of_head {i : Instr} {p : Parcel} {rest : List Parcel} (he : encode i = p :: rest) (hp : p ≠ cpuParcel) :
    i.unprefixed = true := by
  cases i with
  | cpuWide => exact absurd (List.cons.inj he).1.symm hp
  | cpuShort => exact absurd (List.cons.inj he).1.symm hp
  | _ => rfl

/-- What the unprefixed decoder reads is the encoding of its answer. -/
theorem encode_decodePlain {ps rest : List Parcel} {i : Instr} (h : decodePlain ps = .ok (i, rest)) :
    ps = encode i ++ rest := by
  unfold decodePlain at h
  split at h
  · cases h
  rename_i p more
  split at h
  · rename_i h15
    split at h
    · rename_i h14
      split at h
      · cases h
        rw [encode_decodeFive, encodeFive, fieldParcels_append, fieldParcels_append, wideParcel_eta h15 h14]
        rfl
      · cases h
    · rename_i h14
      split at h
      · cases h
        rw [encode_decodeThree, encodeThree, wideParcel_eta h15 (by simpa using h14)]
        rfl
      · cases h
  · rename_i h15
    split at h
    · rename_i hone
      cases h
      rw [encode_decodeOne (by simpa using h15) hone]
      rfl
    · cases h

/-- The CPU parcel alone is no unprefixed instruction. -/
theorem decodePlain_prefix (rest : List Parcel) : decodePlain (cpuParcel :: rest) = .error .prefixParcel := rfl

/-! Decoding an encoding, one family at a time -/

theorem decodePlain_five {i : Instr} {op : BitVec 6} {sm dm : BitVec 4} {a b : BitVec 32} (rest : List Parcel)
    (he : encode i = encodeFive op sm dm a b) (hd : decodeFive (wideParcel 3#2 op sm dm) a b = i) :
    decodePlain (encode i ++ rest) = .ok (i, rest) := by
  obtain ⟨h15, h14⟩ : _ = true ∧ _ = true := wideParcel_length 3#2 op sm dm
  rw [he, encodeFive, fieldParcels, fieldParcels]
  show decodePlain (_ :: _ :: _ :: _ :: _ :: rest) = _
  rw [decodePlain, if_pos h15, if_pos h14, fieldParcels_eta, fieldParcels_eta, hd]

theorem decodePlain_three {i : Instr} {op : BitVec 6} {sm dm : BitVec 4} {a b : Parcel} (rest : List Parcel)
    (he : encode i = encodeThree op sm dm a b) (hd : decodeThree (wideParcel 2#2 op sm dm) a b = i) :
    decodePlain (encode i ++ rest) = .ok (i, rest) := by
  obtain ⟨h15, h14⟩ : _ = true ∧ _ = false := wideParcel_length 2#2 op sm dm
  rw [he, encodeThree]
  show decodePlain (_ :: _ :: _ :: rest) = _
  rw [decodePlain.eq_def]
  dsimp only
  rw [if_pos h15, if_neg (by rw [h14]; decide), hd]

theorem decodePlain_monadic {i : Instr} {sub m : BitVec 4} {o : BitVec 32} (rest : List Parcel)
    (he : encode i = encodeMonadic sub m o) (hd : decodeMonadic sub m o = i) :
    decodePlain (encode i ++ rest) = .ok (i, rest) := by
  refine decodePlain_three rest (he.trans (by rfl : _ = encodeThree 0#6 m sub (o.extractLsb' 16 16) (o.extractLsb' 0 16))) ?_
  rw [decodeThree, wideParcel_opcode, wideParcel_source, wideParcel_destination, fieldParcels_eta]
  exact hd

theorem decodePlain_one {i : Instr} {op : BitVec 5} {f : BitVec 10} (rest : List Parcel)
    (he : encode i = [fieldParcel op f]) (hd : decodeOne (fieldParcel op f) = some i) :
    decodePlain (encode i ++ rest) = .ok (i, rest) := by
  rw [he]
  show decodePlain (_ :: rest) = _
  rw [decodePlain.eq_def]
  dsimp only
  rw [if_neg (by rw [fieldParcel_short]; decide), hd]

theorem decodePlain_encode_five {i : Instr} (rest : List Parcel) (hu : i.unprefixed = true) (h : i.parcels = 5) :
    decodePlain (encode i ++ rest) = .ok (i, rest) := by
  cases i with
  | cpuWide => cases hu
  | cpuShort => cases hu
  | _ =>
    cases h <;> refine decodePlain_five rest rfl ?_ <;>
      rw [decodeFive, wideParcel_opcode, wideParcel_source, wideParcel_destination] <;> rfl

theorem decodePlain_encode_three {i : Instr} (rest : List Parcel) (hu : i.unprefixed = true) (h : i.parcels = 3) :
    decodePlain (encode i ++ rest) = .ok (i, rest) := by
  cases i
  case cpuWide | cpuShort => cases hu
  case kcallW32 | callF32 | returnS32 | jmpF32 | jmpfnA32 | jmpfyA32 | jmptnA32 | jmptyA32 | catchW32 | enterW32 | ldraaF32
      | flushpteW32 | flushpbeW32 | flushdceW32 | unimpMonE | popnS32 =>
    exact decodePlain_monadic rest rfl rfl
  all_goals
    cases h <;> refine decodePlain_three rest rfl ?_ <;>
      rw [decodeThree, wideParcel_opcode, wideParcel_source, wideParcel_destination] <;> rfl

/-- A one-parcel instruction with a ten-bit field. -/
theorem decodeOne_field (op : BitVec 5) (f : BitVec 10) : (fieldParcel op f).extractLsb' 10 5 = op ∧
    (fieldParcel op f).extractLsb' 0 10 = f := by
  refine ⟨fieldParcel_opcode op f, ?_⟩
  rw [fieldParcel_part op f (by omega)]
  exact BitVec.eq_of_toNat_eq (by rw [toNat_extract]; omega)

/-- A one-parcel dyadic's fields. -/
theorem decodeOne_short (op s d : BitVec 5) : (fieldParcel op (s ++ d)).extractLsb' 10 5 = op ∧
    (fieldParcel op (s ++ d)).extractLsb' 5 5 = s ∧ (fieldParcel op (s ++ d)).extractLsb' 0 5 = d := by
  refine ⟨fieldParcel_opcode op _, ?_, ?_⟩
  · rw [fieldParcel_part op _ (by omega)]
    exact append_high s d
  · rw [fieldParcel_part op _ (by omega)]
    exact append_low s d

/-- A stack instruction's fields. -/
theorem decodeOne_stack (sub : BitVec 2) (f : BitVec 8) : (fieldParcel 0x02#5 (sub ++ f)).extractLsb' 10 5 = 0x02#5 ∧
    (fieldParcel 0x02#5 (sub ++ f)).extractLsb' 8 2 = sub ∧ (fieldParcel 0x02#5 (sub ++ f)).extractLsb' 0 8 = f := by
  refine ⟨fieldParcel_opcode _ _, ?_, ?_⟩
  · rw [fieldParcel_part _ _ (by omega)]
    exact append_high sub f
  · rw [fieldParcel_part _ _ (by omega)]
    exact append_low sub f

theorem decodePlain_niladic {i : Instr} {n : BitVec 10} (rest : List Parcel)
    (he : encode i = [fieldParcel 0x0B#5 n]) (hd : decodeNiladic n = some i) :
    decodePlain (encode i ++ rest) = .ok (i, rest) := by
  refine decodePlain_one rest he ?_
  obtain ⟨hop, hf⟩ := decodeOne_field 0x0B#5 n
  rw [decodeOne, hop, hf]
  exact hd

/-- The rows of the niladics' table that leave part of the subcode free. -/
theorem decodeNiladic_rows (n : BitVec 10) :
    (512 ≤ n.toNat → decodeNiladic n = some (.trappedNiladic (n.extractLsb' 0 9))) ∧
    (256 ≤ n.toNat ∧ n.toNat < 512 → decodeNiladic n = some (.unimpNil100 (n.extractLsb' 0 8))) ∧
    (128 ≤ n.toNat ∧ n.toNat < 256 → decodeNiladic n = some (.unimpNil080 (n.extractLsb' 0 7))) ∧
    (64 ≤ n.toNat ∧ n.toNat < 128 → decodeNiladic n = some (.unimpNil040 (n.extractLsb' 0 6))) ∧
    (32 ≤ n.toNat ∧ n.toNat < 64 → decodeNiladic n = some (.unimpNil020 (n.extractLsb' 0 5))) ∧
    (16 ≤ n.toNat ∧ n.toNat < 32 → decodeNiladic n = some (.unimpNil010 (n.extractLsb' 0 4))) ∧
    (12 ≤ n.toNat ∧ n.toNat < 16 → decodeNiladic n = some (.unimpNil00C (n.extractLsb' 0 2))) := by
  have hn := n.isLt
  have hb : ∀ j, n.getLsbD j = true ↔ n.toNat / 2 ^ j % 2 = 1 := fun j => by rw [getLsbD_eq_digit, decide_eq_true_eq]
  have hext : (n.extractLsb' 0 4).toNat = n.toNat % 16 := by rw [toNat_extract]; omega
  simp only [decodeNiladic, hb, hext]
  refine ⟨fun h => ?_, fun h => ?_, fun h => ?_, fun h => ?_, fun h => ?_, fun h => ?_, fun h => ?_⟩
  · rw [if_pos (by omega)]
  · rw [if_neg (by omega), if_pos (by omega)]
  · rw [if_neg (by omega), if_neg (by omega), if_pos (by omega)]
  · rw [if_neg (by omega), if_neg (by omega), if_neg (by omega), if_pos (by omega)]
  · rw [if_neg (by omega), if_neg (by omega), if_neg (by omega), if_neg (by omega), if_pos (by omega)]
  · rw [if_neg (by omega), if_neg (by omega), if_neg (by omega), if_neg (by omega), if_neg (by omega), if_pos (by omega)]
  · rw [if_neg (by omega), if_neg (by omega), if_neg (by omega), if_neg (by omega), if_neg (by omega), if_neg (by omega)]
    split
    case h_13 => rfl
    all_goals omega

theorem decodePlain_niladicRow {i : Instr} {m j k : Nat} {p : Parcel} {n : BitVec 10} (c : BitVec m) (d : BitVec j)
    (x : BitVec k) (rest : List Parcel) (he : encode i = [p]) (hp : p.toNat = (c ++ x).toNat)
    (hn : n.toNat = (d ++ x).toNat) (hcd : c.toNat * 2 ^ k = 11264 + d.toNat * 2 ^ k)
    (hd : n.toNat = d.toNat * 2 ^ k + x.toNat → n.extractLsb' 0 k = x → decodeNiladic n = some i) :
    decodePlain (encode i ++ rest) = .ok (i, rest) := by
  rw [toNat_append_digits] at hn
  refine decodePlain_niladic rest (he.trans (niladicParcel c x n hp (by omega))) (hd hn (BitVec.eq_of_toNat_eq ?_))
  rw [toNat_extract, hn, Nat.pow_zero, Nat.div_one, Nat.mul_comm, Nat.mul_add_mod, Nat.mod_eq_of_lt x.isLt]

theorem decodePlain_encode_one {i : Instr} (rest : List Parcel) (hu : i.unprefixed = true) (h : i.parcels = 1) :
    decodePlain (encode i ++ rest) = .ok (i, rest) := by
  cases i
  case cpuWide | cpuShort => cases hu
  case kret | nop | flushi | flushp | cret | flushd | testv | testc | clre | unimpNil007 | unimpNil00B => rfl
  case kcallImm10 | callPc10 | jmpPc10 | jmpfnPc10 | jmpfyPc10 | jmptnPc10 | jmptyPc10 | unimpOne08 | unimpOne09
      | unimpOne0C =>
    refine decodePlain_one rest rfl ?_
    rw [decodeOne, (decodeOne_field _ _).1, (decodeOne_field _ _).2]
    rfl
  case enterStk8 | catchStk8 | returnStk8 | popnStk8 =>
    refine decodePlain_one rest (congrArg (fun p => [p]) (stackParcel_eq _ _)) ?_
    rw [decodeOne, (decodeOne_stack _ _).1, (decodeOne_stack _ _).2.1, (decodeOne_stack _ _).2.2]
    rfl
  case trappedNiladic x =>
    refine decodePlain_niladicRow (n := 1#1 ++ x) 0x17#7 1#1 x rest rfl rfl rfl (by decide) fun hn hx => ?_
    obtain ⟨row, _⟩ := decodeNiladic_rows (1#1 ++ x)
    have hlt := x.isLt
    rw [row (by rw [hn, BitVec.toNat_ofNat]; omega), hx]
  case unimpNil100 x =>
    refine decodePlain_niladicRow (n := 1#2 ++ x) 0x2D#8 1#2 x rest rfl rfl rfl (by decide) fun hn hx => ?_
    obtain ⟨_, row, _⟩ := decodeNiladic_rows (1#2 ++ x)
    have hlt := x.isLt
    rw [row (by rw [hn, BitVec.toNat_ofNat]; omega), hx]
  case unimpNil080 x =>
    refine decodePlain_niladicRow (n := 1#3 ++ x) 0x59#9 1#3 x rest rfl rfl rfl (by decide) fun hn hx => ?_
    obtain ⟨_, _, row, _⟩ := decodeNiladic_rows (1#3 ++ x)
    have hlt := x.isLt
    rw [row (by rw [hn, BitVec.toNat_ofNat]; omega), hx]
  case unimpNil040 x =>
    refine decodePlain_niladicRow (n := 1#4 ++ x) 0xB1#10 1#4 x rest rfl rfl rfl (by decide) fun hn hx => ?_
    obtain ⟨_, _, _, row, _⟩ := decodeNiladic_rows (1#4 ++ x)
    have hlt := x.isLt
    rw [row (by rw [hn, BitVec.toNat_ofNat]; omega), hx]
  case unimpNil020 x =>
    refine decodePlain_niladicRow (n := 1#5 ++ x) 0x161#11 1#5 x rest rfl rfl rfl (by decide) fun hn hx => ?_
    obtain ⟨_, _, _, _, row, _⟩ := decodeNiladic_rows (1#5 ++ x)
    have hlt := x.isLt
    rw [row (by rw [hn, BitVec.toNat_ofNat]; omega), hx]
  case unimpNil010 x =>
    refine decodePlain_niladicRow (n := 1#6 ++ x) 0x2C1#12 1#6 x rest rfl rfl rfl (by decide) fun hn hx => ?_
    obtain ⟨_, _, _, _, _, row, _⟩ := decodeNiladic_rows (1#6 ++ x)
    have hlt := x.isLt
    rw [row (by rw [hn, BitVec.toNat_ofNat]; omega), hx]
  case unimpNil00C x =>
    refine decodePlain_niladicRow (n := 3#8 ++ x) 0xB03#14 3#8 x rest rfl rfl rfl (by decide) fun hn hx => ?_
    obtain ⟨_, _, _, _, _, _, row⟩ := decodeNiladic_rows (3#8 ++ x)
    have hlt := x.isLt
    rw [row (by rw [hn, BitVec.toNat_ofNat]; omega), hx]
  case movWS | add3WS | and3CS | andSS | cmpeqCS | cmpgtSS | cmpgtCS | cmpeqSS | addCS | add3CS | addSS | add3SS | movSS
      | movIS | movSI | movII | movCS | movaSS | shl3CS | shr3CS =>
    refine decodePlain_one rest (congrArg (fun p => [p]) (shortParcel_eq _ _ _)) ?_
    rw [decodeOne, (decodeOne_short _ _ _).1, (decodeOne_short _ _ _).2.1, (decodeOne_short _ _ _).2.2]
    rfl
  all_goals cases h

theorem parcels_of_unprefixed {i : Instr} (h : i.unprefixed = true) : i.parcels = 1 ∨ i.parcels = 3 ∨ i.parcels = 5 := by
  cases i with
  | cpuWide => cases h
  | cpuShort => cases h
  | _ => exact of_decide_eq_true rfl

/-- The unprefixed decoder undoes the encoder. -/
theorem decodePlain_encode {i : Instr} (rest : List Parcel) (h : i.unprefixed = true) :
    decodePlain (encode i ++ rest) = .ok (i, rest) := by
  obtain h1 | h3 | h5 := parcels_of_unprefixed h
  · exact decodePlain_encode_one rest h h1
  · exact decodePlain_encode_three rest h h3
  · exact decodePlain_encode_five rest h h5

/-! With the CPU parcel -/

theorem encode_ne_nil (i : Instr) : ∃ p more, encode i = p :: more := by
  cases i with
  | _ => exact ⟨_, _, rfl⟩

/-- Parcels that do not begin with the CPU parcel are read by the unprefixed decoder. -/
theorem decodeParcels_plain {p : Parcel} (rest : List Parcel) (h : p ≠ cpuParcel) :
    decodeParcels (p :: rest) = decodePlain (p :: rest) := if_neg h

theorem decodeParcels_encode_unprefixed {i : Instr} (rest : List Parcel) (h : i.unprefixed = true) :
    decodeParcels (encode i ++ rest) = .ok (i, rest) := by
  have hd := decodePlain_encode rest h
  obtain ⟨p, more, he⟩ := encode_ne_nil i
  rw [he, List.cons_append] at hd ⊢
  rw [decodeParcels_plain, hd]
  rintro rfl
  rw [decodePlain_prefix] at hd
  cases hd

/-- The first parcel tells how many there are (R120). -/
theorem decodePlain_wide {p : Parcel} {more rest : List Parcel} {i : Instr} (h : decodePlain (p :: more) = .ok (i, rest)) :
    p.getLsbD 15 = decide (2 < i.parcels) := by
  have hlen := congrArg List.length (encode_decodePlain h)
  rw [List.length_append, encode_length, List.length_cons] at hlen
  rw [decodePlain.eq_def] at h
  dsimp only at h
  split at h
  · rename_i h15
    rw [h15]
    refine (decide_eq_true ?_).symm
    split at h <;> split at h <;> cases h <;> simp only [List.length_cons] at hlen <;> omega
  · rename_i h15
    rw [Bool.eq_false_of_not_eq_true h15]
    refine (decide_eq_false ?_).symm
    split at h <;> cases h
    omega

theorem decodeParcels_encode {i : Instr} (rest : List Parcel) (h : i.wellFormed = true) :
    decodeParcels (encode i ++ rest) = .ok (i, rest) := by
  by_cases hu : i.unprefixed = true
  · exact decodeParcels_encode_unprefixed rest hu
  cases i with
  | cpuWide inner =>
    obtain ⟨hin, hlong⟩ : inner.unprefixed = true ∧ decide (2 < inner.parcels) = true := Bool.and_eq_true_iff.1 h
    have hd := decodePlain_encode rest hin
    obtain ⟨p, more, he⟩ := encode_ne_nil inner
    rw [encode, he]
    rw [he] at hd
    show decodeParcels (cpuParcel :: p :: (more ++ rest)) = _
    rw [decodeParcels, if_pos rfl]
    rw [if_pos ((decodePlain_wide hd).trans hlong), show decodePlain (p :: (more ++ rest)) = _ from hd]
  | cpuShort next =>
    have hn : next.getLsbD 15 = false := by simpa [Instr.wellFormed] using h
    show decodeParcels (cpuParcel :: next :: rest) = _
    rw [decodeParcels, if_pos rfl]
    rw [if_neg (by rw [hn]; decide)]
  | _ => exact absurd rfl hu

theorem encode_decodeParcels {ps rest : List Parcel} {i : Instr} (h : decodeParcels ps = .ok (i, rest)) :
    i.wellFormed = true ∧ ps = encode i ++ rest := by
  unfold decodeParcels at h
  split at h
  · cases h
  rename_i p more
  split at h
  · rename_i hp
    subst hp
    split at h
    · cases h
    rename_i p1 more
    split at h
    · rename_i h15
      split at h
      · rename_i inner _ hd
        cases h
        have he := encode_decodePlain hd
        refine ⟨Bool.and_eq_true_iff.2 ⟨?_, (decodePlain_wide hd).symm.trans h15⟩, congrArg _ he⟩
        obtain ⟨q, more, hq⟩ := encode_ne_nil inner
        refine unprefixed_of_head hq ?_
        rw [hq] at he
        rintro rfl
        rw [(List.cons.inj he).1] at h15
        cases h15
      · cases h
    · rename_i h15
      cases h
      exact ⟨by simpa [Instr.wellFormed] using h15, rfl⟩
  · rename_i hp
    have he := encode_decodePlain h
    obtain ⟨q, more, hq⟩ := encode_ne_nil i
    rw [hq] at he
    refine ⟨wellFormed_of_unprefixed (unprefixed_of_head hq ?_), by rw [hq, he]⟩
    rw [← (List.cons.inj he).1]
    exact hp

/-! Bytes -/

theorem parcelsOfBytes_bytesOfParcels (ps : List Parcel) : parcelsOfBytes (bytesOfParcels ps) = ps := by
  induction ps with
  | nil => rfl
  | cons p ps ih =>
    rw [bytesOfParcels, parcelsOfBytes, ih, show p.extractLsb' 8 8 ++ p.extractLsb' 0 8 = p from append_eta (m := 8) (n := 8) p]

/-- Five parcels are enough for an unprefixed instruction (R164). -/
theorem decodePlain_total {p : Parcel} {ps : List Parcel} (hp : p ≠ cpuParcel) (hlen : 4 ≤ ps.length) :
    ∃ i rest, decodePlain (p :: ps) = .ok (i, rest) := by
  obtain ⟨a, b, c, d, more, rfl⟩ : ∃ a b c d more, ps = a :: b :: c :: d :: more :=
    match ps, hlen with
    | a :: b :: c :: d :: more, _ => ⟨a, b, c, d, more, rfl⟩
  rw [decodePlain.eq_def]
  dsimp only
  split
  · split
    · exact ⟨_, _, rfl⟩
    · exact ⟨_, _, rfl⟩
  · rename_i h15
    split
    · exact ⟨_, _, rfl⟩
    · rename_i hnone
      exact absurd (decodeOne_none (Bool.eq_false_of_not_eq_true h15) hnone) hp

/-- Settles O1: each family of the opcode table decodes from its encoding, and the CPU parcel is read before it. -/
theorem decodeOfEncode : Obligations.DecodeOfEncode := by
  intro i rest h
  refine ⟨decodeParcels_encode rest h, ?_⟩
  rw [decodeBytes, parcelsOfBytes_bytesOfParcels, ← List.append_nil (encode i), decodeParcels_encode [] h]

/-- Settles O2: the encoder undoes each table of the decoder, and the CPU parcel is the one parcel with no row. -/
theorem encodeOfDecode : Obligations.EncodeOfDecode := by
  refine ⟨fun ps rest i h => encode_decodeParcels h, fun ps hlen => ?_⟩
  obtain _ | ⟨p, _ | ⟨p1, ps⟩⟩ := ps
  · exact absurd hlen (by simp)
  · exact absurd hlen (by simp)
  have hlen' : 4 ≤ ps.length := by simpa using hlen
  by_cases hp : p = cpuParcel
  · subst hp
    rw [decodeParcels, if_pos rfl]
    split
    · rename_i h15
      have hp1 : p1 ≠ cpuParcel := by
        rintro rfl
        cases h15
      obtain ⟨i, rest, hd⟩ := decodePlain_total hp1 hlen'
      exact ⟨.cpuWide i, rest, by rw [hd]⟩
    · exact ⟨_, _, rfl⟩
  · rw [decodeParcels_plain _ hp]
    exact decodePlain_total hp (hlen'.trans (Nat.le_succ _))

/-- Settles O3. -/
theorem specWordsDecode : Obligations.SpecWordsDecode := by
  refine ⟨rfl, rfl, rfl, rfl, rfl, rfl, rfl, rfl, rfl, rfl, rfl, rfl⟩

end Sys2Proof
end

section
/-! PROOF. How the reads with no architectural cause end (spec/20_memory.md R108, R112): a fault of theirs is dropped, so
HRESET is the one event, and only an access the bus never answers stops the machine. -/

namespace Sys2Proof.Machine

/-- A part that never refuses, and stops the machine only where the bus never answers, and not while HRESET is on the
pins. -/
def Res.Ends {α : Type} (hreset : Bool) (r : Res α) : Prop :=
  match r with
  | .halt e => hreset = false ∧ e = .busNeverAnswers
  | .refuse _ => False
  | _ => True

theorem Res.Ends.ok {α : Type} (b : Bool) (a : α) (s : State) : (Res.ok a s).Ends b := trivial

theorem Res.Ends.bind {α β : Type} {b : Bool} {r : Res α} {f : α → State → Res β} (h : r.Ends b)
    (hf : ∀ a s, (f a s).Ends b) : (r.bind f).Ends b := by
  cases r with
  | ok a s => exact hf a s
  | trap t s => trivial
  | halt e => exact h
  | refuse e => exact h

theorem Res.Ends.ite {α : Type} {b : Bool} {c : Prop} [Decidable c] {x y : Res α} (hx : x.Ends b) (hy : y.Ends b) :
    (if c then x else y).Ends b := by
  split
  · exact hx
  · exact hy

theorem endedBy_ends {α : Type} {r : Res α} (h : r.Ends false) (b : Bool) (s : State) : (endedBy b s r).Ends b := by
  cases r with
  | halt e =>
    cases b
    · exact h
    · trivial
  | refuse e => exact h
  | _ => trivial

theorem dropped_ends {α : Type} {b : Bool} {r : Res α} (h : r.Ends b) : (dropped r).Ends b := by
  cases r with
  | trap t s => cases t <;> trivial
  | ok a s => trivial
  | halt e => exact h
  | refuse e => exact h

theorem physRead_ends (l : Bool) (t : Trap) (pa : Word) (s : State) : (physRead l t pa s).Ends false := by
  unfold physRead
  dsimp only
  split
  · trivial
  · trivial
  · exact ⟨rfl, rfl⟩
  · trivial

theorem readLine_ends (pa : Word) (s : State) : (readLine pa s).Ends false := by
  refine (physRead_ends _ _ _ _).bind fun _ u => ?_
  have h := physRead_ends true .ioBusFault (pairAlign pa + 4#32) u
  dsimp only
  generalize physRead true .ioBusFault (pairAlign pa + 4#32) u = r at h
  cases r with
  | ok a w => trivial
  | trap t w =>
    split
    · trivial
    · exact .ite trivial trivial
    · trivial
    · trivial
    · trivial
  | halt e => exact h
  | refuse e => exact h

theorem writeBack_ends (pa old new : Word) (s : State) : (writeBack pa old new s).Ends false := by
  unfold writeBack
  dsimp only
  split
  · trivial
  · split
    · trivial
    · trivial
    · exact ⟨rfl, rfl⟩
    · trivial

theorem walk_ends (l : Bool) (k : Kind) (u : Bool) (va : Word) (s : State) : (walk l k u va s).Ends false := by
  refine (physRead_ends _ _ _ _).bind fun ste s => .ite trivial (.ite trivial ?_)
  exact (physRead_ends _ _ _ _).bind fun pte s => .ite trivial ((writeBack_ends _ _ _ _).bind fun _ _ => trivial)

theorem resolve_ends (l : Bool) (k : Kind) (u : Bool) (va : Word) (s : State) : (resolve l k u va s).Ends false := by
  unfold resolve
  refine .ite trivial (Res.Ends.bind ?_ fun m s => .ite trivial trivial)
  split
  · exact .ite (walk_ends _ _ _ _ _) trivial
  · exact walk_ends _ _ _ _ _

/-! The text read ahead -/

theorem fetchParcels_ends {b : Bool} {get : Supply} (hg : ∀ va l s, (get va l s).Ends b) (n : Nat) (va : Word)
    (l : Option TextLine) (s : State) : (fetchParcels get va n l s).Ends b := by
  induction n generalizing va l s with
  | zero => trivial
  | succ k ih => exact (hg _ _ _).bind fun _ _ => (ih _ _ _).bind fun _ _ => trivial

theorem fetchFrom_ends {b : Bool} {get : Supply} (hg : ∀ va l s, (get va l s).Ends b) (va : Word) (s : State) :
    (fetchFrom get va s).Ends b :=
  (hg _ _ _).bind fun _ _ => .ite
    ((hg _ _ _).bind fun _ _ => (fetchParcels_ends hg _ _ _ _).bind fun _ _ => trivial)
    ((fetchParcels_ends hg _ _ _ _).bind fun _ _ => trivial)

theorem fetchAt_ends {b : Bool} {get : Supply} (hg : ∀ va l s, (get va l s).Ends b) (va : Word) (s : State) :
    (fetchAt get va s).Ends b := by
  unfold fetchAt
  refine .ite (fetchFrom_ends hg _ _) (.ite ?_ (fetchFrom_ends hg _ _))
  split
  · trivial
  · exact fetchFrom_ends hg _ _

theorem readPiece_ends (b : Bool) (pa : Word) (s : State) : (readPiece b pa s).Ends b := by
  have hl : ∀ a s, (endedBy b s (readLine a s)).Ends b := fun a s => endedBy_ends (readLine_ends a s) b s
  unfold readPiece
  dsimp only
  exact (Res.Ends.ite (dropped_ends (hl _ _)) (Res.Ends.ok _ _ _)).bind fun _ _ => (hl _ _).bind fun _ _ =>
    (Res.Ends.ite (dropped_ends (hl _ _)) (Res.Ends.ok _ _ _)).bind fun _ _ => trivial

theorem busParcel_ends (b : Bool) (pa : Word) (l : Option TextLine) (s : State) : (busParcel b pa l s).Ends b := by
  unfold busParcel
  split
  · trivial
  · exact (readPiece_ends _ _ _).bind fun _ _ => trivial

theorem aheadParcel_ends (b : Bool) (va : Word) (l : Option TextLine) (s : State) : (aheadParcel b va l s).Ends b := by
  unfold aheadParcel
  refine (endedBy_ends (resolve_ends _ _ _ _ _) b s).bind fun m s => ?_
  dsimp only
  split
  · trivial
  · exact .ite ((busParcel_ends _ _ _ _).bind fun _ _ => trivial) trivial

theorem prefetchAt_ends (b : Bool) (a : Word) (s : State) : (prefetchAt b a s).Ends b := by
  refine dropped_ends ((fetchAt_ends (fun _ _ _ => aheadParcel_ends b _ _ _) _ _).bind fun ps s => ?_)
  split <;> trivial

theorem prefetchMany_ends (b : Bool) (n : Nat) (s : State) : (prefetchMany b n s).Ends b := by
  induction n generalizing s with
  | zero => trivial
  | succ k ih =>
    unfold prefetchMany
    split
    · trivial
    · exact (prefetchAt_ends _ _ _).bind fun _ _ => ih _

theorem prefetch_ends (b : Bool) (s : State) : (prefetch b s).Ends b := by
  unfold prefetch
  exact .ite (prefetchMany_ends _ _ _) trivial

/-! The reads after a mispredicted jump -/

theorem speculateAt_ends (va : Word) (s : State) : (speculateAt va s).Ends false := by
  unfold speculateAt
  have ht : (translate .read (pswX s.psw) va s).Ends false := (resolve_ends _ _ _ _ _).bind fun _ _ => trivial
  exact .ite trivial (dropped_ends (ht.bind fun _ _ => physRead_ends _ _ _ _))

theorem speculateMany_ends (n : Nat) (s : State) : (speculateMany n s).Ends false := by
  induction n generalizing s with
  | zero => trivial
  | succ k ih => exact (speculateAt_ends _ _).bind fun _ _ => ih _

theorem speculate_ends (d : Done) (s : State) : (speculate d s).Ends false := by
  unfold speculate
  exact .ite (speculateMany_ends _ _) trivial

/-! Their one event -/

/-- A part whose one event is HRESET. -/
def Res.ResetsOnly {α : Type} (r : Res α) : Prop :=
  match r with
  | .trap e _ => e = .externalReset
  | _ => True

theorem Res.ResetsOnly.bind {α β : Type} {r : Res α} {f : α → State → Res β} (h : r.ResetsOnly)
    (hf : ∀ a s, (f a s).ResetsOnly) : (r.bind f).ResetsOnly := by
  cases r with
  | ok a s => exact hf a s
  | trap t s => exact h
  | halt e => trivial
  | refuse e => trivial

theorem dropped_resetsOnly {α : Type} (r : Res α) : (dropped r).ResetsOnly := by
  cases r with
  | trap t s => cases t <;> trivial
  | _ => trivial

theorem prefetchMany_resetsOnly (b : Bool) (n : Nat) (s : State) : (prefetchMany b n s).ResetsOnly := by
  induction n generalizing s with
  | zero => trivial
  | succ k ih =>
    unfold prefetchMany
    split
    · trivial
    · exact (dropped_resetsOnly _).bind fun _ _ => ih _

theorem prefetch_resetsOnly (b : Bool) (s : State) : (prefetch b s).ResetsOnly := by
  unfold prefetch
  dsimp only
  split
  · exact prefetchMany_resetsOnly _ _ _
  · trivial

theorem speculateMany_resetsOnly (n : Nat) (s : State) : (speculateMany n s).ResetsOnly := by
  induction n generalizing s with
  | zero => trivial
  | succ k ih =>
    refine Res.ResetsOnly.bind ?_ fun _ _ => ih _
    unfold speculateAt
    split
    · trivial
    · exact dropped_resetsOnly _

theorem speculate_resetsOnly (d : Done) (s : State) : (speculate d s).ResetsOnly := by
  unfold speculate
  dsimp only
  split
  · exact speculateMany_resetsOnly _ _
  · trivial

/-! What they leave -/

/-- What no read with no architectural cause touches: registers, flags, requests, the stack cache and unreported stores.
-/
def unreadPart (s : State) :=
  ((s.config, s.isp, s.msp, s.sp, s.vb, s.stb, s.fault, s.timer1, s.timer2),
    (s.t1Pending, s.t2Pending, s.nmiArmed, s.tracePending, s.busMap, s.pins),
    (s.pc, s.psw, s.shad, s.cache, s.writeFaults, s.ended))

theorem unreadPart_eq {s u : State} (h : unreadPart u = unreadPart s) :
    SameRegisters s u ∧ SameEvents s u ∧ u.pc = s.pc ∧ u.psw = s.psw ∧ u.shad = s.shad ∧ u.cache = s.cache ∧
      u.writeFaults = s.writeFaults ∧ u.ended = s.ended := by
  simp only [unreadPart, Prod.mk.injEq] at h
  obtain ⟨⟨r1, r2, r3, r4, r5, r6, r7, r8, r9⟩, ⟨e1, e2, e3, e4, e5, e6⟩, hrest⟩ := h
  exact ⟨⟨r1, r2, r3, r4, r5, r6, r7, r8, r9⟩, ⟨e1, e2, e3, e4, e5, e6⟩, hrest⟩

theorem unreadPart_walks (s : State) : Walks fun u => unreadPart u = unreadPart s where
  free _ _ h := h
  mem _ _ h := h
  pfbStale _ _ h := h
  icStale _ _ h := h
  dataTlb _ _ h := h
  dataNpsr _ _ h := h
  turns _ _ h := h

/-- The text translations too, by reads of data. -/
theorem textTranslations_walks (s : State) : Walks fun u => u.textTlb = s.textTlb ∧ u.textNpsr = s.textNpsr where
  free _ _ h := h
  mem _ _ h := h
  pfbStale _ _ h := h
  icStale _ _ h := h
  dataTlb _ _ h := h
  dataNpsr _ _ h := h
  turns _ _ h := h

/-- The prefetch unit loads text translations and notes what it reads. -/
theorem unreadPart_textReads (s : State) : TextReads fun u => unreadPart u = unreadPart s where
  free _ _ h := h
  textMaps _ _ h := h
  pfbQuads _ _ h := h
  ahead _ _ h := h
  resolve va _ h := (unreadPart_walks s).resolve _ _ (fun _ => ⟨fun _ _ h => h, fun _ _ h => h⟩) _ va h
  readLine pa _ h := (unreadPart_walks s).readLine pa h

/-! With physical addressing -/

/-- What one bus read leaves with physical addressing: the data translations, and, with no input to come, memory. -/
def physicalPart (s u : State) : Prop :=
  u.vpEff = false ∧ u.dataTlb = s.dataTlb ∧ u.dataNpsr = s.dataNpsr ∧ (s.turns = [] → u.turns = [] ∧ u.mem = s.mem)

theorem otherMasters_translations (ws : List Host.Cell) (s : State) :
    (otherMasters ws s).vpEff = s.vpEff ∧ (otherMasters ws s).dataTlb = s.dataTlb ∧
      (otherMasters ws s).dataNpsr = s.dataNpsr := by
  induction ws generalizing s with
  | nil => exact ⟨rfl, rfl, rfl⟩
  | cons c rest ih =>
    unfold otherMasters
    dsimp only
    split
    · exact ih (physStore _ _ _ _)
    · exact ih s

theorem busTurn_physicalPart (l : Bool) (pa : Word) {s u : State} (h : physicalPart s u) :
    physicalPart s (busTurn l pa u).2 := by
  obtain ⟨hv, ht, hn, hm⟩ := h
  unfold busTurn
  split
  · exact ⟨hv, ht, hn, hm⟩
  · rename_i b rest hu
    have hs : s.turns ≠ [] := by
      intro hs
      rw [hu] at hm
      cases (hm hs).1
    dsimp only
    split
    · exact ⟨hv, ht, hn, fun hs' => absurd hs' hs⟩
    · obtain ⟨gv, gt, gn⟩ := otherMasters_translations b.writes (u.setTurns rest)
      exact ⟨gv.trans hv, gt.trans ht, gn.trans hn, fun hs' => absurd hs' hs⟩

theorem speculateAt_physicalPart (va : Word) {s u : State} (h : physicalPart s u) :
    (speculateAt va u).Leaves (physicalPart s) := by
  have hb := busTurn_physicalPart false va h
  unfold speculateAt
  refine .ite h (dropped_leaves ?_)
  rw [translate, translateIn_physical _ _ _ _ _ h.1]
  show (physRead false .ioBusFault va u).Leaves (physicalPart s)
  unfold physRead
  dsimp only
  split
  · exact hb
  · exact hb
  · trivial
  · exact hb

theorem speculate_physicalPart (d : Done) (s : State) (hv : s.vpEff = false) :
    (speculate d s).Leaves (physicalPart s) := by
  have hmany : ∀ n u, physicalPart s u → (speculateMany n u).Leaves (physicalPart s) := by
    intro n
    induction n with
    | zero => exact fun u h => h
    | succ k ih => exact fun u h => (speculateAt_physicalPart _ (u := (drawWord u).2) h).bind fun _ _ h => ih _ h
  have hs : physicalPart s s := ⟨hv, rfl, rfl, fun h => ⟨h, rfl⟩⟩
  unfold speculate
  exact .ite (hmany _ _ hs) hs

/-- Nothing is read where no bus access could show. -/
theorem speculate_unseen (d : Done) (s : State) (hv : s.vpEff = false) (hb : ramBus s = true) :
    speculate d s = .ok () s := by
  obtain ⟨hmap, hturns⟩ := Bool.and_eq_true_iff.1 hb
  have hr : readsShow s = false := by simp only [readsShow, hv, hmap, hturns, Bool.not_true, Bool.or_self]
  rw [speculate, hr, Bool.and_false]
  rfl

/-- Settles O58: the reads keep every property that translations and text reads keep, their faults are dropped, and only
an access the bus never answers stops them. -/
theorem speculativeReadsLeaveRegisters : Obligations.SpeculativeReadsLeaveRegisters := by
  intro d hreset s
  refine ⟨?_, speculate_unseen d s, ?_⟩
  · have hend := speculate_ends d s
    have htrap := speculate_resetsOnly d s
    have hpart := (unreadPart_walks s).speculate d rfl
    have htext := (textTranslations_walks s).speculate d ⟨rfl, rfl⟩
    have hphys := speculate_physicalPart d s
    generalize speculate d s = r at *
    cases r with
    | ok a u =>
      obtain ⟨hr, he, hpc, hpsw, hshad, hcache, hwf, hended⟩ := unreadPart_eq hpart
      refine ⟨hr, he, hpc, hpsw, hshad, hcache, hwf, hended, htext.1, htext.2, fun hv => ?_⟩
      obtain ⟨-, htlb, hnpsr, hmem⟩ := hphys hv
      exact ⟨htlb, hnpsr, fun ht => (hmem ht).2⟩
    | trap e u => exact htrap
    | halt e => exact hend.2
    | refuse e => exact hend
  · have hend := prefetch_ends hreset s
    have htrap := prefetch_resetsOnly hreset s
    have hpart := (unreadPart_textReads s).prefetch hreset rfl
    generalize prefetch hreset s = r at *
    cases r with
    | ok a u => exact unreadPart_eq hpart
    | trap e u => exact htrap
    | halt e => exact hend.2
    | refuse e => exact hend

end Sys2Proof.Machine
end

section
/-! PROOF. HRESET at a boundary (spec/70_reset_and_hazards.md R420): whatever the prefetch unit meets, the boundary ends
in a reset. -/

namespace Sys2Proof.Machine

theorem Res.Ends.onTrap {α : Type} {b : Bool} {r : Res α} (h : r.Ends b) (f : State → State) : (r.onTrap f).Ends b := by
  cases r with
  | halt e => exact h
  | refuse e => exact h
  | _ => trivial

theorem boundary_ends (p : Pins) (s : State) : (boundary p s).Ends p.hreset :=
  ((prefetch_ends _ _).onTrap _).bind fun _ _ => (prefetch_ends _ _).bind fun _ _ => trivial

theorem pins_walks (ps : List Pins) : Walks fun u => u.pins = ps where
  free _ _ h := h
  mem _ _ h := h
  pfbStale _ _ h := h
  icStale _ _ h := h
  dataTlb _ _ h := h
  dataNpsr _ _ h := h
  turns _ _ h := h

theorem pins_textReads (ps : List Pins) : TextReads fun u => u.pins = ps where
  free _ _ h := h
  textMaps _ _ h := h
  pfbQuads _ _ h := h
  ahead _ _ h := h
  resolve va _ h := (pins_walks ps).resolve _ _ (fun _ => ⟨fun _ _ h => h, fun _ _ h => h⟩) _ va h
  readLine pa _ h := (pins_walks ps).readLine pa h

theorem applyWrites_pins (s : State) : (applyWrites s).pins = s.pins := by
  have h := (pins_walks s.pins).drawMix 0xFFFFFFFF#32 s.configEff s.config rfl
  unfold applyWrites
  generalize drawMix 0xFFFFFFFF#32 s.configEff s.config s = d at h
  dsimp only
  split
  · exact h
  · split
    · exact h
    · exact h

theorem armNmi_pins (p : Pins) (s : State) : (armNmi p s).pins = s.pins := by
  unfold armNmi
  split <;> rfl

/-- A boundary uses up no inputs beyond its own. -/
theorem boundary_pins (p : Pins) (s : State) : (boundary p s).Leaves fun u => u.pins = s.pins := by
  have hother : ∀ u : State, u.pins = s.pins → (otherMasters p.writes u).pins = s.pins :=
    fun u h => (pins_walks s.pins).otherMasters p.writes h
  refine (((pins_textReads s.pins).prefetch _ rfl).onTrap hother).bind fun _ u h => ?_
  refine ((pins_textReads s.pins).prefetch _ (hother u h)).bind fun _ v hv => ?_
  exact (applyWrites_pins _).trans ((armNmi_pins p v).trans hv)

theorem applyWrites_mem (s : State) : (applyWrites s).mem = s.mem := by
  have hmix : ∀ m a b (u : State), (drawMix m a b u).2.mem = u.mem := by
    intro m a b u
    unfold drawMix
    split <;> rfl
  have h := hmix 0xFFFFFFFF#32 s.configEff s.config s
  unfold applyWrites
  generalize drawMix 0xFFFFFFFF#32 s.configEff s.config s = d at h
  dsimp only
  split
  · exact h
  · split
    · exact h
    · exact h

theorem armNmi_mem (p : Pins) (s : State) : (armNmi p s).mem = s.mem := by
  unfold armNmi
  split <;> rfl

/-- The other masters' writes give the prefetch unit nothing to read. -/
theorem otherMasters_mayPrefetch (ws : List Host.Cell) (s : State) :
    mayPrefetch (otherMasters ws s) = mayPrefetch s := by
  induction ws generalizing s with
  | nil => rfl
  | cons c rest ih =>
    unfold otherMasters
    dsimp only
    split
    · exact ih (physStore _ _ _ _)
    · exact ih s

theorem prefetch_idle (b : Bool) (s : State) (h : mayPrefetch s = false) : prefetch b s = .ok () s := by
  rw [prefetch, h]
  rfl

/-- A boundary with nothing to prefetch. -/
theorem boundary_idle (p : Pins) (s : State) (h : mayPrefetch s = false) :
    boundary p s = .ok () (applyWrites (armNmi p (otherMasters p.writes s))) := by
  rw [boundary, prefetch_idle _ _ h]
  show (prefetch p.hreset (otherMasters p.writes s)).bind _ = _
  rw [prefetch_idle _ _ ((otherMasters_mayPrefetch _ _).trans h)]
  rfl

/-- The other masters' writes depend on memory and the platform only. -/
theorem otherMasters_mem_congr (ws : List Host.Cell) {s t : State} (hm : s.mem = t.mem) (hb : s.busMap = t.busMap) :
    (otherMasters ws s).mem = (otherMasters ws t).mem := by
  induction ws generalizing s t with
  | nil => exact hm
  | cons c rest ih =>
    unfold otherMasters
    dsimp only
    rw [hb]
    refine ih ?_ ?_
    · split
      · rw [physStore_mem, physStore_mem, hm]
      · exact hm
    · split
      · exact hb
      · exact hb

theorem resetSequence_external (s : State) :
    ∃ t, resetSequence true s = t ∧ t.pc = 0#32 ∧ t.psw = 0#32 ∧ t.config = 0#32 ∧ t.configEff = 0#32 ∧ t.shad = 0#32 ∧
      t.vpEff = false ∧ t.textTlb = [] ∧ t.dataTlb = [] ∧ t.textNpsr = none ∧ t.dataNpsr = none ∧
      t.pfbStale = [] ∧ t.icStale = [] ∧ t.textMaps = [] ∧ t.pfbQuads = [] ∧ t.t1Pending = false ∧
      t.t2Pending = false ∧ t.nmiArmed = true ∧ t.tracePending = false ∧ t.pins = s.pins ∧ t.mem = s.mem := by
  refine ⟨_, rfl, ?_⟩
  simp [resetSequence, forgetRegisters, resetCommon, flushTextCaches, flushTranslations, scrambleCells, drawWord]

/-- With HRESET on the pins a step is a reset, of the state its boundary leaves. -/
theorem step_hreset {s : State} {p : Pins} {rest : List Pins} (hs : s.pins = p :: rest) (hp : p.hreset = true) :
    ∃ u, step s = .next (resetSequence true u) ∧ u.pins = rest ∧
      (mayPrefetch s = false → u.mem = (otherMasters p.writes s).mem) := by
  have hnext : nextPins s = (p, (s.setPins rest).setTurns p.turns) := by rw [nextPins, hs]
  have hend := boundary_ends p ((s.setPins rest).setTurns p.turns)
  have hpins : (boundary p ((s.setPins rest).setTurns p.turns)).Leaves fun u => u.pins = rest := boundary_pins p _
  have hmem : mayPrefetch s = false → (boundary p ((s.setPins rest).setTurns p.turns)) = .ok () _ :=
    boundary_idle p ((s.setPins rest).setTurns p.turns)
  rw [step, hnext]
  dsimp only
  generalize boundary p ((s.setPins rest).setTurns p.turns) = r at *
  cases r with
  | ok a u =>
    refine ⟨u, if_pos hp, hpins, fun h => ?_⟩
    cases hmem h
    rw [applyWrites_mem, armNmi_mem]
    exact otherMasters_mem_congr _ rfl rfl
  | trap e u => exact ⟨u, rfl, hpins, fun h => by cases hmem h⟩
  | halt e =>
    rw [hp] at hend
    cases hend.1
  | refuse e => exact hend.elim

/-- Settles O7: at the boundary nothing can stop the prefetch unit while HRESET is on the pins. -/
theorem resetPinResets : Obligations.ResetPinResets := by
  intro s p rest hs hp
  obtain ⟨u, hstep, hpins, hmem⟩ := step_hreset hs hp
  obtain ⟨t, rfl, h1, h2, h3, h4, h5, h6, h7, h8, h9, h10, h11, h12, h13, h14, h15, h16, h17, h18, h19, h20⟩ :=
    resetSequence_external u
  exact ⟨_, hstep, h1, h2, h3, h4, h5, h6, h7, h8, h9, h10, h11, h12, h13, h14, h15, h16, h17, h18, h19.trans hpins,
    fun h => h20.trans (hmem h)⟩

end Sys2Proof.Machine
end

section
/-! PROOF. Text with RAM everywhere (spec/20_memory.md R71, R109): what the bus gives is memory's, and what the caches
may hold is what memory has or had. -/

namespace Sys2Proof.Machine

/-! The bus -/

/-- A double word of text that memory bears out. -/
def LineTrue (m : Memory) (line : Option TextLine) : Prop :=
  ∀ l ∈ line, ∀ a v, textAlign a = a → l.parcel a = some v → v = Memory.parcel m a

theorem lineTrue_none (m : Memory) : LineTrue m none := fun _ h => by cases h

theorem readLine_true (pa : Word) (s : State) (h : ramBus s = true) :
    ∃ l, readLine pa s = .ok l s ∧ LineTrue s.mem (some l) ∧
      (textAlign pa = pa → l.parcel pa = some (Memory.parcel s.mem pa)) := by
  obtain ⟨l, hl, hp⟩ := readLine_ram pa s h
  have haddr : l.addr = pairAlign pa := by
    have hl' := hl
    simp only [readLine, physRead_ram _ _ _ _ h, Res.bind_ok] at hl'
    cases hl'
    rfl
  refine ⟨l, hl, ?_, fun ha => hp pa ha rfl⟩
  rintro _ ⟨⟩ a v ha hv
  have hpair : pairAlign a = pairAlign pa := by
    by_contra hne
    rw [TextLine.parcel, if_neg (fun he => hne (he.symm.trans haddr))] at hv
    cases hv
  rw [hp a ha hpair] at hv
  exact (Option.some.inj hv).symm

theorem endedBy_ok {α : Type} (b : Bool) (s t : State) (a : α) : endedBy b s (.ok a t) = .ok a t := rfl

theorem readPiece_true (pa : Word) (s : State) (h : ramBus s = true) (ha : textAlign pa = pa) :
    ∃ l k, readPiece false pa s = .ok l (s.setFree k) ∧ LineTrue s.mem (some l) ∧
      l.parcel pa = some (Memory.parcel s.mem pa) ∧ (configPM s.configEff = false → k = s.free) := by
  have hread : ∀ k, ∃ l, readLine pa (s.setFree k) = .ok l (s.setFree k) ∧ LineTrue s.mem (some l) ∧
      l.parcel pa = some (Memory.parcel s.mem pa) := by
    intro k
    obtain ⟨l, hl, ht, hp⟩ := readLine_true pa (s.setFree k) h
    exact ⟨l, hl, ht, hp ha⟩
  have hother : ∀ k, dropped (endedBy false (s.setFree k) (readLine (pa ^^^ 8#32) (s.setFree k))) = .ok () (s.setFree k) := by
    intro k
    obtain ⟨l, hl, -⟩ := readLine_true (pa ^^^ 8#32) (s.setFree k) h
    rw [hl]
    rfl
  cases hpm : configPM s.configEff with
  | false =>
    obtain ⟨l, hl, ht, hp⟩ := hread s.free
    refine ⟨l, s.free, ?_, ht, hp, fun _ => rfl⟩
    have hl' : readLine pa s = .ok l s := hl
    simp only [readPiece, hpm, Bool.false_eq_true, if_false, Nat.zero_ne_one, Res.bind_ok, hl', endedBy_ok]
    rfl
  | true =>
    obtain ⟨l, hl, ht, hp⟩ := hread (s.free + 1)
    refine ⟨l, s.free + 1, ?_, ht, hp, fun h => nomatch h⟩
    have hd : ∀ c : Prop, ∀ _ : Decidable c,
        (if c then dropped (endedBy false (s.setFree (s.free + 1)) (readLine (pa ^^^ 8#32) (s.setFree (s.free + 1))))
          else Res.ok () (s.setFree (s.free + 1))) = .ok () (s.setFree (s.free + 1)) := by
      intro c _
      split
      · exact hother _
      · rfl
    simp only [readPiece, hpm, if_true, drawBelow, hd, Res.bind_ok, hl, endedBy_ok]

theorem busParcel_true (pa : Word) (line : Option TextLine) (s : State) (h : ramBus s = true) (ha : textAlign pa = pa)
    (hl : LineTrue s.mem line) :
    ∃ l k, busParcel false pa line s = .ok (Memory.parcel s.mem pa, l) (s.setFree k) ∧ LineTrue s.mem l ∧
      (configPM s.configEff = false → k = s.free) := by
  unfold busParcel
  split
  · rename_i v hv
    obtain ⟨l, rfl, hv⟩ := Option.bind_eq_some_iff.1 hv
    rw [← hl l rfl pa v ha hv]
    exact ⟨_, s.free, rfl, hl, fun _ => rfl⟩
  · obtain ⟨l, k, hr, ht, hp, hk⟩ := readPiece_true pa s h ha
    exact ⟨some l, k, by rw [hr, Res.bind_ok, hp]; rfl, ht, hk⟩

/-! The caches -/

theorem heldParcel_spec (pa : Word) (s : State) : ∃ o k, heldParcel pa s = (o, s.setFree k) ∧ (∀ v ∈ o, v ∈ pfbValues pa s) ∧
    (pfbValues pa s = [] → o = none ∧ k = s.free) := by
  unfold heldParcel
  cases hp : pfbValues pa s with
  | nil => exact ⟨none, s.free, rfl, fun v h => (nomatch h), fun _ => ⟨rfl, rfl⟩⟩
  | cons x xs => exact ⟨_, _, rfl, fun v h => List.mem_of_getElem? h, fun h => by cases h⟩

/-- Text read with physical addressing is not kept in the prefetch buffer (R85). -/
theorem noteText_physical (va : Word) (s : State) : ∃ x, noteText va .physical s = s.setTextMaps x := ⟨_, rfl⟩

theorem keepStale_spec (a : Word) (v : Parcel) (s : State) : ∃ x, keepStale a v s = s.setIcStale x := by
  unfold keepStale
  split
  · exact ⟨_, rfl⟩
  · exact ⟨s.icStale, rfl⟩

/-- A fetch with physical addressing gives what the prefetch buffer may hold, or memory's parcel. -/
theorem fetchParcel_physical (va : Word) (line : Option TextLine) (s : State) (hv : s.vpEff = false)
    (hb : ramBus s = true) (hl : LineTrue s.mem line) :
    ∃ p l t, fetchParcel va line s = .ok (p, l) t ∧
      (p ∈ pfbValues (textAlign va) s ∨ p = Memory.parcel s.mem (textAlign va)) ∧ LineTrue s.mem l ∧
      (∃ k c x, t = ((s.setFree k).setIcStale c).setTextMaps x ∧
        (pfbValues (textAlign va) s = [] → c = s.icStale ∧ (configPM s.configEff = false → k = s.free))) := by
  have hres : resolve false .text (pswX s.psw) (textAlign va) s = .ok .physical s := by rw [resolve, hv]; rfl
  obtain ⟨o, k, hh, ho, hnil⟩ := heldParcel_spec (textAlign va) s
  simp only [fetchParcel, readAhead_hidden _ _ (readsShow_ram s hv hb), Res.bind_ok, hres, parcelAt, Mapping.address, hh]
  cases o with
  | some v =>
    obtain ⟨c, hc⟩ := keepStale_spec (textAlign va) v (s.setFree k)
    obtain ⟨x, hx⟩ := noteText_physical (textAlign va) (keepStale (textAlign va) v (s.setFree k))
    refine ⟨v, line, _, rfl, .inl (ho v rfl), hl, k, c, x, by rw [hx, hc], fun hn => ?_⟩
    cases (hnil hn).1
  | none =>
    obtain ⟨l, j, hr, ht, hj⟩ := busParcel_true (textAlign va) line (s.setFree k) hb (textAlign_textAlign va) hl
    obtain ⟨x, hx⟩ := noteText_physical (textAlign va) ((s.setFree k).setFree j)
    refine ⟨_, l, _, by rw [hr]; rfl, .inr rfl, ht, j, s.icStale, x, hx, fun hn => ⟨rfl, fun hpm => ?_⟩⟩
    rw [hj hpm]
    exact (hnil hn).2

/-! What the caches may hold after a store into text -/

/-- Every earlier parcel listed is the one memory had. -/
def StaleOf (m : Memory) (xs : List StaleParcel) : Prop := ∀ e ∈ xs, e.value = Memory.parcel m e.addr

theorem staleOf_addNew {m : Memory} {xs : List StaleParcel} (h : StaleOf m xs) (a : Word) :
    StaleOf m (addNew ⟨a, Memory.parcel m a⟩ xs) := by
  unfold addNew
  split
  · exact h
  · intro e he
    rcases List.mem_cons.1 he with rfl | he
    · rfl
    · exact h e he

theorem staleOf_nil (m : Memory) : StaleOf m [] := fun _ h => by cases h

theorem mem_staleValues {m : Memory} {xs : List StaleParcel} {a : Word} {v : Parcel} (h : StaleOf m xs)
    (hv : v ∈ staleValues a xs) : v = Memory.parcel m a := by
  obtain ⟨e, he, rfl⟩ := List.mem_map.1 hv
  obtain ⟨hmem, haddr⟩ := List.mem_filter.1 he
  rw [h e hmem, eq_of_beq haddr]

theorem physStore_stale (pa : Word) (n : Nat) (v : Word) (s : State) (hp : s.pfbStale = []) (hi : s.icStale = []) :
    StaleOf s.mem (physStore pa n v s).pfbStale ∧ StaleOf s.mem (physStore pa n v s).icStale := by
  have hnew := staleOf_addNew (staleOf_addNew (staleOf_nil s.mem) (wordAlign pa + 2#32)) (wordAlign pa)
  simp only [physStore, noteStale, State.setMem_pfbStale, State.setMem_icStale, State.setIcStale_pfbStale,
    State.setIcStale_icStale, State.setPfbStale_pfbStale, hp, hi]
  refine ⟨?_, hnew⟩
  split
  · exact hnew
  · exact staleOf_nil _

theorem pfbValues_spec {m : Memory} {a : Word} {s : State} {v : Parcel} (h : StaleOf m s.pfbStale)
    (hv : v ∈ pfbValues a s) : v = Memory.parcel m a ∨ v = Memory.parcel s.mem a := by
  unfold pfbValues at hv
  split at hv
  · rcases List.mem_append.1 hv with hv | hv
    · exact .inl (mem_staleValues h hv)
    · split at hv
      · exact .inr (List.mem_singleton.1 hv)
      · cases hv
  · cases hv

/-- A page that is its own frame is at its own address. -/
theorem textMap_address {x : TextMap} {va : Word} (hf : x.frame = x.page) (hp : x.page = pageOf va) : x.address va = va := by
  rw [TextMap.address, hf, hp]
  exact append_eta (m := 20) (n := 12) va

theorem icValues_spec {m : Memory} {a : Word} {s : State} {v : Parcel} (hp : StaleOf m s.pfbStale)
    (hi : StaleOf m s.icStale) (hm : ∀ x ∈ s.textMaps, x.frame = x.page) (hv : v ∈ icValues a s) :
    v = Memory.parcel m a ∨ v = Memory.parcel s.mem a := by
  unfold icValues at hv
  split at hv
  · obtain ⟨x, hx, hv⟩ := List.mem_flatMap.1 hv
    obtain ⟨hmem, hpage⟩ := List.mem_filter.1 hx
    rw [textMap_address (hm x hmem) (eq_of_beq hpage)] at hv
    rcases List.mem_cons.1 hv with rfl | hv
    · exact .inr rfl
    · rcases List.mem_append.1 hv with hv | hv
      · exact .inl (mem_staleValues hi hv)
      · exact .inl (mem_staleValues hp hv)
  · cases hv

/-- Settles O57: what is not memory's parcel was memory's before a store. -/
theorem fetchSuppliesMemoryOrStale : Obligations.FetchSuppliesMemoryOrStale := by
  intro va w old new s u hv hb hm hu hold hnew
  subst hold hnew
  refine ⟨fun hclean => ?_, fun ⟨hp, hi⟩ => ?_⟩
  · obtain ⟨p, l, t, hf, hval, -, k, c, x, rfl, -⟩ := fetchParcel_physical va none s hv hb (lineTrue_none _)
    have hpfb : ∀ v ∈ pfbValues (textAlign va) s, v = Memory.parcel s.mem (textAlign va) := by
      intro v hv
      rcases hclean with ⟨hp, -⟩ | ⟨hp, -⟩
      · rcases pfbValues_spec (by rw [hp]; exact staleOf_nil s.mem) hv with h | h <;> exact h
      · rw [pfbValues, hp] at hv
        cases hv
    have hpv : p = Memory.parcel s.mem (textAlign va) := hval.elim (hpfb p) id
    subst hpv
    refine ⟨⟨l, _, hf, rfl, rfl⟩, fun v hv => ?_⟩
    rcases hclean with ⟨hp, hi⟩ | ⟨-, hi⟩
    · rcases icValues_spec (by rw [hp]; exact staleOf_nil s.mem) (by rw [hi]; exact staleOf_nil s.mem) hm hv with h | h <;>
        exact h
    · rw [icValues, hi] at hv
      cases hv
  · obtain ⟨hsp, hsi⟩ := physStore_stale (wordAlign va) 4 w s hp hi
    rw [← hu] at hsp hsi
    have hvu : u.vpEff = false := by rw [hu]; exact hv
    have hbu : ramBus u = true := by rw [hu]; exact hb
    have hmu : ∀ x ∈ u.textMaps, x.frame = x.page := by rw [hu]; exact hm
    obtain ⟨p, l, t, hf, hval, -⟩ := fetchParcel_physical va none u hvu hbu (lineTrue_none _)
    exact ⟨⟨p, l, t, hf, hval.elim (pfbValues_spec hsp) .inr⟩, fun v hv => icValues_spec hsp hsi hmu hv⟩

end Sys2Proof.Machine
end

section
/-! PROOF. A step at a quiet boundary (spec/60_exceptions.md R386): what is fetched is the text at PC, as many parcels as
its first ones ask for, and nothing but the instruction happens. -/

namespace Sys2Proof

/-- A first parcel's length is the instruction's. -/
theorem parcelCount_of_decodePlain {p : Parcel} {more rest : List Parcel} {i : Instr}
    (h : decodePlain (p :: more) = .ok (i, rest)) : parcelCount p = i.parcels := by
  have hlen := congrArg List.length (encode_decodePlain h)
  rw [List.length_append, encode_length, List.length_cons] at hlen
  rw [decodePlain.eq_def] at h
  dsimp only at h
  unfold parcelCount
  split at h
  · rename_i h15
    rw [if_pos h15]
    split at h
    · rename_i h14
      rw [if_pos h14]
      split at h <;> cases h
      simp only [List.length_cons] at hlen
      omega
    · rename_i h14
      rw [if_neg h14]
      split at h <;> cases h
      simp only [List.length_cons] at hlen
      omega
  · rename_i h15
    rw [if_neg h15]
    split at h <;> cases h
    omega

/-- How many parcels the first two of an instruction ask for (R120, R128). -/
def parcelsAsked (p0 p1 : Parcel) : Nat := if p0 = cpuParcel then 1 + parcelCount p1 else parcelCount p0

theorem parcelsAsked_of_encode {i : Instr} {p0 p1 : Parcel} {more rest : List Parcel} (hw : i.wellFormed = true)
    (h : p0 :: p1 :: more = encode i ++ rest) : parcelsAsked p0 p1 = i.parcels := by
  by_cases hu : i.unprefixed = true
  · have hd := decodePlain_encode rest hu
    rw [← h] at hd
    have hne : p0 ≠ cpuParcel := by
      rintro rfl
      rw [decodePlain_prefix] at hd
      cases hd
    rw [parcelsAsked, if_neg hne, parcelCount_of_decodePlain hd]
  cases i with
  | cpuWide inner =>
    obtain ⟨hin, -⟩ : inner.unprefixed = true ∧ decide (2 < inner.parcels) = true := Bool.and_eq_true_iff.1 hw
    have hd := decodePlain_encode rest hin
    obtain ⟨h0, h1⟩ := List.cons.inj (show p0 :: p1 :: more = cpuParcel :: (encode inner ++ rest) from h)
    rw [← h1] at hd
    rw [parcelsAsked, if_pos h0, parcelCount_of_decodePlain hd]
    rfl
  | cpuShort next =>
    obtain ⟨h0, h1⟩ := List.cons.inj (show p0 :: p1 :: more = cpuParcel :: next :: rest from h)
    have hn : next.getLsbD 15 = false := by simpa [Instr.wellFormed] using hw
    rw [parcelsAsked, if_pos h0, (List.cons.inj h1).1, parcelCount, hn]
    rfl
  | _ => exact absurd rfl hu

theorem parcelCount_pos (p : Parcel) : parcelCount p - 1 + 1 = parcelCount p := by
  unfold parcelCount
  split
  · split <;> rfl
  · rfl

end Sys2Proof

namespace Sys2Proof.Machine

theorem textAt_take (va : Word) {k n : Nat} (h : k ≤ n) (s : State) : (textAt va n s).take k = textAt va k s := by
  induction k generalizing va n with
  | zero => rfl
  | succ k ih =>
    obtain ⟨m, rfl⟩ : ∃ m, n = m + 1 := ⟨n - 1, by omega⟩
    rw [textAt, textAt, List.take_succ_cons, ih (va + 2#32) (Nat.le_of_succ_le_succ h)]

theorem textAt_length (va : Word) (n : Nat) (s : State) : (textAt va n s).length = n := by
  induction n generalizing va with
  | zero => rfl
  | succ k ih => rw [textAt, List.length_cons, ih]

/-- Physical addressing, RAM everywhere, and nothing in the prefetch buffer: what a fetch needs to be quiet. -/
structure QuietText (s : State) : Prop where
  physical : s.vpEff = false
  bus      : ramBus s = true
  pm       : configPM s.configEff = false
  empty    : ∀ pa, pfbValues pa s = []

theorem QuietText.fetchParcel {s : State} (h : QuietText s) (x : List TextMap) (va : Word) (line : Option TextLine)
    (hl : LineTrue s.mem line) :
    ∃ l y, fetchParcel va line (s.setTextMaps x) = .ok (Memory.parcel s.mem (textAlign va), l) (s.setTextMaps y) ∧
      LineTrue s.mem l := by
  obtain ⟨p, l, t, hf, hp, ht, k, c, y, rfl, hrest⟩ :=
    fetchParcel_physical va line (s.setTextMaps x) h.physical h.bus hl
  have hn : pfbValues (textAlign va) (s.setTextMaps x) = [] := h.empty _
  obtain ⟨rfl, hk⟩ := hrest hn
  obtain rfl := hk h.pm
  rw [hn] at hp
  obtain rfl := hp.resolve_left (fun h => nomatch h)
  exact ⟨l, y, hf, ht⟩

theorem QuietText.fetchParcels {s : State} (h : QuietText s) (n : Nat) (x : List TextMap) (va : Word)
    (line : Option TextLine) (hl : LineTrue s.mem line) :
    ∃ y, fetchParcels Machine.fetchParcel va n line (s.setTextMaps x) = .ok (textAt va n s) (s.setTextMaps y) := by
  induction n generalizing x va line with
  | zero => exact ⟨x, rfl⟩
  | succ k ih =>
    obtain ⟨l, y, hf, ht⟩ := h.fetchParcel x va line hl
    obtain ⟨z, hz⟩ := ih y (va + 2#32) l ht
    exact ⟨z, by simp only [Machine.fetchParcels, hf, hz, Res.bind_ok, textAt]⟩

/-- A fetch takes the parcels the first two ask for. -/
theorem QuietText.fetchFrom {s : State} (h : QuietText s) (va : Word) :
    ∃ y, fetchFrom Machine.fetchParcel va s =
      .ok (textAt va (parcelsAsked (Memory.parcel s.mem (textAlign va)) (Memory.parcel s.mem (textAlign (va + 2#32)))) s)
        (s.setTextMaps y) := by
  obtain ⟨l0, x0, h0, ht0⟩ := h.fetchParcel s.textMaps va none (lineTrue_none _)
  have h0' : Machine.fetchParcel va none s = .ok (Memory.parcel s.mem (textAlign va), l0) (s.setTextMaps x0) := h0
  simp only [Machine.fetchFrom, h0', Res.bind_ok]
  by_cases hc : Memory.parcel s.mem (textAlign va) = cpuParcel
  · obtain ⟨l1, x1, h1, ht1⟩ := h.fetchParcel x0 (va + 2#32) l0 ht0
    obtain ⟨y, hy⟩ := h.fetchParcels (parcelCount (Memory.parcel s.mem (textAlign (va + 2#32))) - 1) x1 (va + 4#32) l1 ht1
    refine ⟨y, ?_⟩
    have hva : va + 2#32 + 2#32 = va + 4#32 := by bv_omega
    rw [if_pos hc, h1, Res.bind_ok, hy, Res.bind_ok, parcelsAsked, if_pos hc, Nat.add_comm, textAt,
      ← parcelCount_pos (Memory.parcel s.mem (textAlign (va + 2#32))), textAt, hva, Nat.add_sub_cancel]
  · obtain ⟨y, hy⟩ := h.fetchParcels (parcelCount (Memory.parcel s.mem (textAlign va)) - 1) x0 (va + 2#32) l0 ht0
    refine ⟨y, ?_⟩
    rw [if_neg hc, hy, Res.bind_ok, parcelsAsked, if_neg hc,
      ← parcelCount_pos (Memory.parcel s.mem (textAlign va)), textAt, Nat.add_sub_cancel]

/-- What is fetched decodes to what the text decodes to. -/
theorem QuietText.fetchDecode {s : State} (h : QuietText s) (hm : s.textMaps = []) {i : Instr} {rest : List Parcel}
    (hd : decodeParcels (textAt s.pc 6 s) = .ok (i, rest)) :
    i.wellFormed = true ∧ ∃ y, fetchDecode s = .ok i (s.setTextMaps y) := by
  obtain ⟨hw, henc⟩ := encode_decodeParcels hd
  refine ⟨hw, ?_⟩
  obtain ⟨y, hy⟩ := h.fetchFrom s.pc
  have hasked := parcelsAsked_of_encode hw
    (show Memory.parcel s.mem (textAlign s.pc) :: Memory.parcel s.mem (textAlign (s.pc + 2#32)) :: _ = _ from henc)
  rw [hasked] at hy
  have hlen := congrArg List.length henc
  rw [textAt_length, List.length_append, encode_length] at hlen
  have htext : textAt s.pc i.parcels s = encode i := by
    rw [← textAt_take s.pc (n := 6) (by omega) s, henc, ← encode_length i, List.take_left']
    rfl
  have hic : icValues (textAlign s.pc) s = [] := by simp [icValues, hm]
  refine ⟨y, ?_⟩
  have hdec := decodeParcels_encode [] hw
  rw [List.append_nil] at hdec
  simp only [Machine.fetchDecode, fetchInstruction, fetchAt, hic, List.isEmpty_nil, if_true, hy, htext, Res.bind_ok, hdec]

/-- A conditional jump that completes leaves the addressing mode and the bus. -/
theorem exec_jmpIf_bus {i : Instr} {b px : Bool} {m : BitVec 4} {o : Word} {n : Nat} {u t : State}
    (hp : parse i = some (px, .monadic (.jmpIf b) m o n)) (ht : exec i u = .next t) (he : t.ended ≠ .event) :
    t.vpEff = u.vpEff ∧ ramBus t = ramBus u := by
  by_cases hm : m = 0xE#4 ∨ m = 0xF#4
  · obtain ⟨-, hj⟩ := jumpResult i px m o n u
    obtain ⟨r, hr⟩ := hj b hp hm
    rw [hr] at ht
    cases ht
    exact ⟨rfl, rfl⟩
  · have hd : (m == 0xE#4 || m == 0xF#4) = false := by simpa using hm
    rw [exec_of_run_trap hp (runJmpIf_illegal hd b px o n u)] at ht
    exact absurd (takeTrap_ended _ _ _ ht) he

/-- Nothing is read after a conditional jump where no bus access could show. -/
theorem exec_speculate {i : Instr} {u t : State} (hv : u.vpEff = false) (hb : ramBus u = true) (ht : exec i u = .next t)
    (folded : Bool) : speculate ⟨parse i, folded⟩ t = .ok () t := by
  by_cases hp : Done.predicts ⟨parse i, folded⟩ t = true
  · obtain ⟨hcomp, hview⟩ := Bool.and_eq_true_iff.1 hp
    obtain ⟨-, hended⟩ := Bool.and_eq_true_iff.1 hcomp
    have hne : t.ended ≠ .event := fun h => by
      rw [h] at hended
      cases hended
    dsimp only at hview
    split at hview
    · rename_i px b m o n hparse
      obtain ⟨hv', hb'⟩ := exec_jmpIf_bus hparse ht hne
      exact speculate_unseen _ t (hv'.trans hv) (hb'.trans hb)
    · cases hview
  · rw [speculate, Bool.eq_false_of_not_eq_true hp]
    rfl

/-- A quiet boundary goes straight to the next instruction. -/
theorem step_quiet {s : State} (h : QuietBoundary s) : step s = runNext s s := by
  have hpend : pendingInterrupt 7#3 s = none := by
    have h1 : timer1Due s = false := by simp [timer1Due, h.t1Pending]
    have h2 : timer2Due s = false := by simp [timer2Due, h.t2Pending]
    have he : externalDue 7#3 s = false := rfl
    simp [pendingInterrupt, h.nmiArmed, h1, h2, he]
  have hfold : foldedJump s = (none, s) := by simp [foldedJump, h.foldable]
  have hrep : reportsWrite s.tracePending s = (false, s) := by simp [reportsWrite, h.writeFaults]
  rw [step, nextPins_quiet s h]
  dsimp only
  rw [boundary_quiet s h]
  show (match foldedJump s with
    | (some (i, s'), _) => runInstr true i s s'
    | (none, s') => runBoundary 7#3 s') = _
  rw [hfold]
  dsimp only
  rw [runBoundary, hpend]
  dsimp only
  rw [hrep]
  dsimp only
  rw [h.tracePending]
  rfl

/-- What follows an instruction with no earlier report waiting and no bus input. -/
theorem conclude_quiet {d : Done} {s u t : State} (hw : u.writeFaults = 0) (hturns : u.turns = [])
    (hs : speculate d t = .ok () t) :
    conclude d s u (.next t) =
      if t.ended = .event ∧ t.writeFaults ≠ 0 then reportWrite s (u.setWriteFaults t.writeFaults)
      else .next (afterStep d s t) := by
  have hh : hresetEnded u t = false := by simp [hresetEnded, hturns]
  simp only [conclude, hh, hw, hs, Nat.zero_max, Bool.not_false, Bool.and_true, bne_self_eq_false, Bool.false_or,
    Bool.and_eq_true, beq_iff_eq, bne_iff_ne]

/-- Settles O6: nothing but the fetch and the instruction happens at a quiet boundary, and the fetch gives the text. -/
theorem stepRunsDecodedInstruction : Obligations.StepRunsDecodedInstruction := by
  intro s i rest hq hv hb hd
  have hram : ramBus s = true := (ramBus_iff s).2 ⟨hb, hq.turns⟩
  obtain ⟨hpm, hquads⟩ : configPM s.configEff = false ∧ s.pfbQuads = [] := by simpa [mayPrefetch] using hq.prefetch
  have htext : QuietText s := ⟨hv, hram, hpm, fun pa => by simp [pfbValues, staleValues, hq.pfbStale, hquads]⟩
  obtain ⟨hwf, y, hf⟩ := htext.fetchDecode hq.textMaps hd
  have hstep : step s = runInstr false i s (s.setTextMaps y) := by
    have hw0 : (serialises i && (s.setTextMaps y).writeFaults != 0) = false := by simp [hq.writeFaults]
    rw [step_quiet hq, runNext, hf]
    dsimp only
    rw [hw0]
    rfl
  have hconc : ∀ t, exec i (s.setTextMaps y) = .next t → step s = _ := fun t ht =>
    (hstep.trans (congrArg (conclude ⟨parse i, false⟩ s _) ht)).trans
      (conclude_quiet hq.writeFaults hq.turns (exec_speculate (u := s.setTextMaps y) hv hram ht false))
  refine ⟨hwf, s.setTextMaps y, rfl, ?_, ?_, ?_, ?_⟩
  · intro t ht hne
    rw [hconc t ht, if_neg]
    rintro ⟨he, hw⟩
    exact hne.elim (fun h => h he) hw
  · intro t ht he hw
    rw [hconc t ht, if_pos ⟨he, hw⟩]
  · intro e he
    rw [hstep, runInstr, he]
    rfl
  · intro e he
    rw [hstep, runInstr, he]
    rfl

end Sys2Proof.Machine
end

section
/-! PROOF. Bytes, words and lanes (spec/20_memory.md R60, R61, R63): a word of memory bit by bit, what a load of 1, 2 or 4
bytes reads of it, and what a store of them leaves. -/

namespace Sys2Proof.Machine

/-! Bits of memory -/

/-- Bit `j` of `n` bytes of memory: they are big-endian (R61). -/
theorem getLsbD_readBE (m : Memory) (a : Word) (n : Nat) {j : Nat} (hj : j < 32) :
    (Memory.readBE m a n).getLsbD j =
      (decide (j < 8 * n) && (m.read (byteKey a (n - 1 - j / 8))).getLsbD (j % 8)) := by
  induction n generalizing j with
  | zero => simp [Memory.readBE]
  | succ k ih =>
    rw [Memory.readBE, BitVec.getLsbD_or, BitVec.getLsbD_shiftLeft, BitVec.getLsbD_setWidth]
    by_cases h8 : j < 8
    · have hd : j / 8 = 0 := Nat.div_eq_of_lt h8
      have hlt : j < 8 * (k + 1) := by omega
      simp [hj, h8, hd, hlt, Nat.mod_eq_of_lt h8]
    · obtain ⟨i, rfl⟩ : ∃ i, j = i + 8 := ⟨j - 8, by omega⟩
      have hhigh : ∀ b : Byte, b.getLsbD (i + 8) = false := fun b => BitVec.getLsbD_of_ge b _ (by omega)
      have hk : k + 1 - 1 - (i + 8) / 8 = k - 1 - i / 8 := by omega
      have hlt : decide (i + 8 < 8 * (k + 1)) = decide (i < 8 * k) := decide_eq_decide.2 (by omega)
      have hmod : (i + 8) % 8 = i % 8 := by omega
      rw [hk, hmod, hlt, Nat.add_sub_cancel, ih (by omega), hhigh]
      simp [hj]

/-- Words with the same bits. -/
theorem eq_of_bits {v w : Word} (h : ∀ j < 32, v.getLsbD j = w.getLsbD j) : v = w :=
  BitVec.eq_of_getLsbD_eq h

/-- Bytes of memory are those read. -/
theorem readBE_congr {m m' : Memory} {a : Word} {n : Nat} (h : ∀ k < n, m'.read (byteKey a k) = m.read (byteKey a k)) :
    Memory.readBE m' a n = Memory.readBE m a n := by
  induction n with
  | zero => rfl
  | succ k ih =>
    rw [Memory.readBE, Memory.readBE, ih fun j hj => h j (hj.trans (Nat.lt_succ_self k)), h k (Nat.lt_succ_self k)]

theorem byteKey_inj {a : Word} {i j : Nat} (hi : i < 4294967296) (hj : j < 4294967296) (h : byteKey a i = byteKey a j) :
    i = j := by
  simp only [byteKey, BitVec.toNat_add, BitVec.toNat_ofNat] at h
  omega

/-- The bytes a store writes are read back. -/
theorem readBE_writeBE_same (m : Memory) (a : Word) {n : Nat} (hn : n ≤ 4) (v : Word) {j : Nat} (hj : j < 8 * n) :
    (Memory.readBE (m.writeBE a n v) a n).getLsbD j = v.getLsbD j := by
  induction n generalizing v j with
  | zero => omega
  | succ k ih =>
    have hother : Memory.readBE (m.writeBE a (k + 1) v) a k = Memory.readBE (m.writeBE a k (v >>> 8)) a k :=
      readBE_congr fun i hi => by
        rw [Memory.writeBE, Memory.read_write, if_neg]
        intro h
        have := byteKey_inj (by omega) (by omega) h
        omega
    have hlast : (m.writeBE a (k + 1) v).read (byteKey a k) = v.setWidth 8 := by
      rw [Memory.writeBE, Memory.read_write, if_pos rfl]
    rw [Memory.readBE, hother, hlast, BitVec.getLsbD_or, BitVec.getLsbD_shiftLeft, BitVec.getLsbD_setWidth,
      BitVec.getLsbD_setWidth]
    by_cases h8 : j < 8
    · have h32 : j < 32 := by omega
      simp [h8, h32]
    · have h32 : j < 32 := by omega
      have hadd : 8 + (j - 8) = j := by omega
      rw [ih (by omega) (v >>> 8) (by omega), BitVec.getLsbD_ushiftRight, hadd]
      simp [h8, h32]

/-! Lanes -/

theorem bytesMask_bit {n : Nat} (hn : n = 1 ∨ n = 2 ∨ n = 4) {j : Nat} (hj : j < 32) :
    (bytesMask n).getLsbD j = decide (j < 8 * n) := by
  rcases hn with rfl | rfl | rfl <;> interval_cases j <;> rfl

theorem laneGet_bit {n : Nat} (hn : n = 1 ∨ n = 2 ∨ n = 4) (a w : Word) {j : Nat} (hj : j < 32) :
    (laneGet n a w).getLsbD j = (decide (j < 8 * n) && w.getLsbD (laneShift n a + j)) := by
  rw [laneGet, BitVec.getLsbD_and, BitVec.getLsbD_ushiftRight, bytesMask_bit hn hj, Bool.and_comm]

theorem lanePut_bit {n : Nat} (hn : n = 1 ∨ n = 2 ∨ n = 4) (a w v : Word) {j : Nat} (hj : j < 32) :
    (lanePut n a w v).getLsbD j =
      if laneShift n a ≤ j ∧ j < laneShift n a + 8 * n then v.getLsbD (j - laneShift n a) else w.getLsbD j := by
  rw [lanePut, getLsbD_mergeBits, BitVec.getLsbD_shiftLeft, BitVec.getLsbD_shiftLeft, bytesMask_bit hn (by omega)]
  by_cases h1 : j < laneShift n a
  · simp [h1, Nat.not_le.2 h1]
  · by_cases h2 : j < laneShift n a + 8 * n
    · have h3 : j - laneShift n a < 8 * n := by omega
      simp [hj, h1, h2, h3, Nat.le_of_not_lt h1]
    · have h3 : ¬ j - laneShift n a < 8 * n := by omega
      simp [h2, h3]

/-- Where the bytes of an aligned access lie in their word (R60). -/
theorem laneAddr_toNat {n : Nat} (hn : n = 1 ∨ n = 2 ∨ n = 4) {va : Word} (ha : aligned va n = true) (l : Bool) :
    (laneAddr l n va).toNat = va.toNat / 4 * 4 + (if l then 4 - n - va.toNat % 4 else va.toNat % 4) := by
  rw [aligned_iff] at ha
  have hva := va.isLt
  cases l
  · simp only [laneAddr, Bool.false_eq_true, if_false]
    omega
  · have hx : ∀ c : Word, c.toNat < 4 → (va ^^^ c).toNat = va.toNat / 4 * 4 + (va.toNat % 4 ^^^ c.toNat) := by
      intro c hc
      have hdiv : (va.toNat ^^^ c.toNat) / 2 ^ 2 = va.toNat / 2 ^ 2 := by
        rw [Nat.xor_div_two_pow, Nat.div_eq_of_lt (a := c.toNat) hc, Nat.xor_zero]
      have hmod : (va.toNat ^^^ c.toNat) % 2 ^ 2 = va.toNat % 2 ^ 2 ^^^ c.toNat := by
        rw [Nat.xor_mod_two_pow, Nat.mod_eq_of_lt (a := c.toNat) hc]
      rw [show (2 : Nat) ^ 2 = 4 from rfl] at hdiv hmod
      rw [BitVec.toNat_xor]
      omega
    have h4 : va.toNat % 4 < 4 := Nat.mod_lt _ (by decide)
    have hmod : va.toNat % 4 % n = 0 := by rcases hn with rfl | rfl | rfl <;> omega
    rw [laneAddr, if_pos rfl, hx _ (by rcases hn with rfl | rfl | rfl <;> decide), if_pos rfl]
    refine congrArg _ ?_
    generalize va.toNat % 4 = r at h4 hmod
    rcases hn with rfl | rfl | rfl <;> revert r <;> decide

/-- An aligned access lies in one word: `laneShift` bits are below it. -/
theorem laneShift_eq {n : Nat} (hn : n = 1 ∨ n = 2 ∨ n = 4) {va : Word} (ha : aligned va n = true) (l : Bool) :
    laneShift n (laneAddr l n va) = 8 * (if l then va.toNat % 4 else 4 - n - va.toNat % 4) := by
  have h := laneAddr_toNat hn ha l
  rw [aligned_iff] at ha
  unfold laneShift
  cases l
  · simp only [Bool.false_eq_true, if_false] at h ⊢
    rcases hn with rfl | rfl | rfl <;> omega
  · simp only [if_true] at h ⊢
    rcases hn with rfl | rfl | rfl <;> omega

/-- The lanes of an access are read back from where they were put. -/
theorem laneGet_lanePut_same {n : Nat} (hn : n = 1 ∨ n = 2 ∨ n = 4) {va : Word} (ha : aligned va n = true) (l : Bool)
    (w v : Word) : laneGet n (laneAddr l n va) (lanePut n (laneAddr l n va) w v) = v &&& bytesMask n := by
  have hs := laneShift_eq hn ha l
  rw [aligned_iff] at ha
  refine eq_of_bits fun j hj => ?_
  rw [laneGet_bit hn _ _ hj, BitVec.getLsbD_and, bytesMask_bit hn hj, Bool.and_comm]
  by_cases h : j < 8 * n
  · have hlt : laneShift n (laneAddr l n va) + j < 32 := by
      rw [hs]
      cases l <;> simp only [if_true, Bool.false_eq_true, if_false] <;> rcases hn with rfl | rfl | rfl <;> omega
    rw [lanePut_bit hn _ _ _ hlt, if_pos ⟨Nat.le_add_right _ _, by omega⟩, Nat.add_sub_cancel_left]
  · simp [h]

/-- The lanes of other bytes of the word are left. -/
theorem laneGet_lanePut_other {n m : Nat} (hn : n = 1 ∨ n = 2 ∨ n = 4) (hm : m = 1 ∨ m = 2 ∨ m = 4) {va wa : Word}
    (ha : aligned va n = true) (hb : aligned wa m = true)
    (hdis : va.toNat % 4 + n ≤ wa.toNat % 4 ∨ wa.toNat % 4 + m ≤ va.toNat % 4) (l : Bool) (w v : Word) :
    laneGet m (laneAddr l m wa) (lanePut n (laneAddr l n va) w v) = laneGet m (laneAddr l m wa) w := by
  have hs := laneShift_eq hn ha l
  have ht := laneShift_eq hm hb l
  rw [aligned_iff] at ha hb
  refine eq_of_bits fun j hj => ?_
  rw [laneGet_bit hm _ _ hj, laneGet_bit hm _ _ hj]
  by_cases h : j < 8 * m
  · have hn4 : va.toNat % 4 + n ≤ 4 := by rcases hn with rfl | rfl | rfl <;> omega
    have hm4 : wa.toNat % 4 + m ≤ 4 := by rcases hm with rfl | rfl | rfl <;> omega
    refine congrArg _ ?_
    cases l
    · simp only [Bool.false_eq_true, if_false] at hs ht
      rw [lanePut_bit hn _ _ _ (by omega), hs, ht, if_neg (by omega)]
    · simp only [if_true] at hs ht
      rw [lanePut_bit hn _ _ _ (by omega), hs, ht, if_neg (by omega)]
  · simp [h]

/-! Loads and stores -/

/-- A load outside the stack cache reads its bytes (R61). -/
theorem laneGet_readBE {n : Nat} (hn : n = 1 ∨ n = 2 ∨ n = 4) {va : Word} (ha : aligned va n = true) (l : Bool)
    (m : Memory) :
    laneGet n (laneAddr l n va) (Memory.readBE m (wordAlign va) 4) = Memory.readBE m (laneAddr l n va) n := by
  have hs := laneShift_eq hn ha l
  have hl := laneAddr_toNat hn ha l
  rw [aligned_iff] at ha
  have hva := va.isLt
  refine eq_of_bits fun j hj => ?_
  rw [laneGet_bit hn _ _ hj, getLsbD_readBE m _ n hj]
  by_cases h : j < 8 * n
  · have hn4 : va.toNat % 4 + n ≤ 4 := by rcases hn with rfl | rfl | rfl <;> omega
    have hkey : byteKey (wordAlign va) (4 - 1 - (laneShift n (laneAddr l n va) + j) / 8) =
        byteKey (laneAddr l n va) (n - 1 - j / 8) := by
      simp only [byteKey, BitVec.toNat_add, BitVec.toNat_ofNat, wordAlign_toNat, hl, hs]
      cases l
      · simp only [Bool.false_eq_true, if_false]
        omega
      · simp only [if_true]
        omega
    have hbit : (laneShift n (laneAddr l n va) + j) % 8 = j % 8 := by omega
    have hlt : laneShift n (laneAddr l n va) + j < 32 := by
      rw [hs]
      cases l
      · simp only [Bool.false_eq_true, if_false]
        omega
      · simp only [if_true]
        omega
    rw [getLsbD_readBE m _ 4 hlt, hkey, hbit]
    simp [hlt]
  · simp [h]

theorem little_store (n : Nat) (va v : Word) (s : State) : little (store n va v s) = little s := by
  obtain ⟨h1, -, -, -, h5, -⟩ := store_same n va v s
  rw [little, little, h1, h5]

/-- A load reads the stack cache's word, or the bytes in memory. -/
theorem load_eq {n : Nat} (hn : n = 1 ∨ n = 2 ∨ n = 4) {va : Word} (ha : aligned va n = true) (s : State) :
    load n va s = if hits va s then laneGet n (laneAddr (little s) n va) (readCell va s)
      else Memory.readBE s.mem (laneAddr (little s) n va) n := by
  rw [load]
  split
  · rfl
  · exact laneGet_readBE hn ha _ _

/-- What a store leaves of memory and the stack cache. -/
theorem store_parts (n : Nat) (va v : Word) (s : State) :
    (store n va v s).mem = (if hits va s then s.mem else Memory.writeBE s.mem (laneAddr (little s) n va) n v) ∧
      (store n va v s).cache = (if hits va s then
        s.cache.set (cellIndex va) (lanePut n (laneAddr (little s) n va) (readCell va s) v) else s.cache) := by
  unfold store
  split
  · exact ⟨rfl, rfl⟩
  · exact ⟨physStore_mem _ _ _ _, rfl⟩

theorem readCell_congr {va wa : Word} (h : cellIndex wa = cellIndex va) (cells : Vector Word 64) :
    cells[cellIndex wa] = cells[cellIndex va] := congrArg (fun i : Fin 64 => cells[i]) h

theorem readCell_store (n : Nat) (va wa v : Word) (s : State) (hh : hits va s = true) :
    readCell wa (store n va v s) =
      if cellIndex wa = cellIndex va then lanePut n (laneAddr (little s) n va) (readCell va s) v else readCell wa s := by
  obtain ⟨-, hc⟩ := store_parts n va v s
  rw [readCell, hc, if_pos hh]
  by_cases h : cellIndex wa = cellIndex va
  · rw [if_pos h]
    exact (readCell_congr h _).trans (Vector.getElem_set_self _)
  · rw [if_neg h]
    exact Vector.getElem_set_ne _ _ fun he => h (Fin.ext he.symm)

theorem load_store_same {n : Nat} (hn : n = 1 ∨ n = 2 ∨ n = 4) {va : Word} (ha : aligned va n = true) (v : Word)
    (s : State) : load n va (store n va v s) = v &&& bytesMask n := by
  rw [load_eq hn ha, hits_store, little_store]
  cases hh : hits va s with
  | true =>
    rw [if_pos rfl, readCell_store _ _ _ _ _ hh, if_pos rfl]
    exact laneGet_lanePut_same hn ha _ _ _
  | false =>
    obtain ⟨hm, -⟩ := store_parts n va v s
    rw [if_neg Bool.false_ne_true, hm, hh, if_neg Bool.false_ne_true]
    refine eq_of_bits fun j hj => ?_
    rw [BitVec.getLsbD_and, bytesMask_bit hn hj]
    by_cases h : j < 8 * n
    · rw [readBE_writeBE_same _ _ (by omega) _ h, decide_eq_true h, Bool.and_true]
    · rw [getLsbD_readBE _ _ _ hj, decide_eq_false h, Bool.false_and, Bool.and_false]

/-- In a usable window two words that share a cell are one (10_state.md R11, R47). -/
theorem word_of_cell {va wa : Word} {s : State} (hi : Inv s) (hu : usable s = true) (ha : hits va s = true)
    (hb : hits wa s = true) (h : cellIndex wa = cellIndex va) : wa.toNat / 4 = va.toNat / 4 := by
  have hsp := (quadAligned_iff _).1 hi.sp
  have hidx : wa.toNat / 4 % 64 = va.toNat / 4 % 64 := Fin.mk.inj h
  simp only [hits, Bool.and_eq_true, decide_eq_true_eq, BitVec.le_def, BitVec.lt_def] at ha hb
  obtain ⟨⟨hsc, ha1⟩, ha2⟩ := ha
  obtain ⟨⟨-, hb1⟩, hb2⟩ := hb
  have hw : windowOk s = true := by simpa [usable, hsc] using hu
  obtain ⟨-, hle⟩ := Bool.and_eq_true_iff.1 hw
  have hmsp : s.msp.toNat ≤ s.sp.toNat + 256 := of_decide_eq_true hle
  omega

theorem load_store_other {n m : Nat} (hn : n = 1 ∨ n = 2 ∨ n = 4) (hm : m = 1 ∨ m = 2 ∨ m = 4) {va wa : Word}
    (ha : aligned va n = true) (hb : aligned wa m = true) (v : Word) {s : State} (hi : Inv s) (hu : usable s = true)
    (hdis : va.toNat + n ≤ wa.toNat ∨ wa.toNat + m ≤ va.toNat) : load m wa (store n va v s) = load m wa s := by
  obtain ⟨hmem, hcache⟩ := store_parts n va v s
  rw [load_eq hm hb, load_eq hm hb, hits_store, little_store]
  by_cases hw : hits wa s = true
  · rw [if_pos hw, if_pos hw]
    by_cases hv : hits va s = true
    · rw [readCell_store _ _ _ _ _ hv]
      split
      · rename_i h
        have hword := word_of_cell hi hu hv hw h
        have hcell : readCell va s = readCell wa s := readCell_congr h.symm s.cache
        rw [hcell]
        exact laneGet_lanePut_other hn hm ha hb (by omega) _ _ _
      · rfl
    · rw [if_neg hv] at hcache
      rw [readCell, readCell, hcache]
  · rw [if_neg hw, if_neg hw, hmem]
    by_cases hv : hits va s = true
    · rw [if_pos hv]
    · rw [if_neg hv]
      refine readBE_congr fun k hk => Memory.read_writeBE_other _ _ _ _ _ fun j hj h => ?_
      have hla := laneAddr_toNat hn ha (little s)
      have hlb := laneAddr_toNat hm hb (little s)
      rw [aligned_iff] at ha hb
      have h1 := va.isLt
      have h2 := wa.isLt
      have hn4 : va.toNat % 4 + n ≤ 4 := by rcases hn with rfl | rfl | rfl <;> omega
      have hm4 : wa.toNat % 4 + m ≤ 4 := by rcases hm with rfl | rfl | rfl <;> omega
      simp only [byteKey, BitVec.toNat_add, BitVec.toNat_ofNat, hla, hlb] at h
      cases hl : little s
      · simp only [hl, Bool.false_eq_true, if_false] at h
        omega
      · simp only [hl, if_true] at h
        omega

/-- Settles O52: a store puts its bytes in one word's lanes, in the stack cache or in memory. -/
theorem loadAfterStore : Obligations.LoadAfterStore := by
  intro n m va wa v s hn hm ha hb
  exact ⟨load_store_same hn ha v s, fun hi hu hdis => load_store_other hn hm ha hb v hi hu hdis⟩

end Sys2Proof.Machine
end

section
/-! PROOF. Translation (spec/20_memory.md R86 to R94): what is cached answers unless it was dropped, and a walk reads its
two entries, loads what it found and writes the page table entry back. -/

namespace Sys2Proof.Machine

/-- A nonpaged segment's bound is on bits 21:12 of the address (R88). -/
theorem inBound_iff (ste va : Word) : inBound ste va = true ↔ (va.toNat / 4096) % 1024 ≤ (ste.toNat / 4096) % 1024 := by
  rw [inBound, decide_eq_true_eq, BitVec.le_def, toNat_extract, toNat_extract]
  rfl

/-- What a mapping answers. -/
def Mapping.answer (m : Mapping) (k : Kind) (user : Bool) (va : Word) (s : State) : Res Word :=
  if m.allows k user va then .ok (m.address va) s else .trap (k.fault va) s

theorem answer_page (pte : Word) (k : Kind) (user : Bool) (va : Word) (s : State) :
    (Mapping.page pte).answer k user va s =
      if permitted k user pte then .ok (pageAddress pte va) s else .trap (k.fault va) s := rfl

theorem answer_segment (ste : Word) (k : Kind) (user : Bool) (va : Word) (s : State) :
    (Mapping.segment ste).answer k user va s =
      if permitted k user ste ∧ (va.toNat / 4096) % 1024 ≤ (ste.toNat / 4096) % 1024 then
        .ok (segmentAddress ste va) s
      else .trap (k.fault va) s := by
  simp only [Mapping.answer, Mapping.allows, Mapping.address, Bool.and_eq_true, inBound_iff]

/-- A virtual address is answered by what is found for it. -/
theorem translate_found {k : Kind} {user : Bool} {va : Word} {s u : State} {c : Option Mapping} (hv : s.vpEff = true)
    (hc : cachedMapping k va s = (c, u)) :
    translate k user va s =
      (match c with
        | some m => if m.needsWalk k then walk false k user va u else .ok m u
        | none => walk false k user va u).bind fun m t => m.answer k user va t := by
  have hbind : ∀ r : Res Mapping,
      ((r.bind fun m t => if m.allows k user va then .ok m t else .trap (k.fault va) t).bind fun m t =>
        Res.ok (m.address va) t) = r.bind fun m t => m.answer k user va t := by
    intro r
    cases r with
    | ok m t =>
      simp only [Res.bind_ok, Mapping.answer]
      split <;> rfl
    | trap e t => rfl
    | halt e => rfl
    | refuse e => rfl
  rw [translate, translateIn, resolve, hv, hc]
  exact hbind _

theorem setFree_ne (s : State) : s.setFree (s.free + 1) ≠ s := by
  intro h
  have hf : s.free + 1 = s.free := congrArg State.free h
  omega

/-- A cached mapping stands, or was dropped where a walk would be seen (R94, log 16). -/
theorem maybeForget_spec (va : Word) (m : Mapping) (s : State) :
    ∃ u, u = s.setFree u.free ∧ (tableMapping va s = some m → s.turns = [] → u = s) ∧
      (maybeForget va m s = (some m, u) ∨ (u ≠ s ∧ maybeForget va m s = (none, u))) := by
  unfold maybeForget
  split
  · exact ⟨s, rfl, fun _ _ => rfl, .inl rfl⟩
  · rename_i hkeep
    refine ⟨s.setFree (s.free + 1), rfl, fun h1 h2 => absurd ⟨h1, h2⟩ hkeep, ?_⟩
    cases hb : (Config.freeWord s.free).getLsbD 0 with
    | false => exact .inl (by simp only [drawBit, hb]; rfl)
    | true => exact .inr ⟨setFree_ne s, by simp only [drawBit, hb]; rfl⟩

/-- A cached mapping that needs no walk answers, or was dropped and a walk takes its place. -/
theorem translate_cached {k : Kind} {user : Bool} {va : Word} {s : State} {m : Mapping} (hv : s.vpEff = true)
    (hc : cachedMapping k va s = maybeForget va m s) (hn : m.needsWalk k = false) :
    ∃ u, u = s.setFree u.free ∧ (tableMapping va s = some m → s.turns = [] → u = s) ∧
      (translate k user va s = m.answer k user va u ∨
        (u ≠ s ∧ translate k user va s = (walk false k user va u).bind fun m t => m.answer k user va t)) := by
  obtain ⟨u, hu, hkeep, hf | ⟨hne, hf⟩⟩ := maybeForget_spec va m s
  · refine ⟨u, hu, hkeep, .inl ?_⟩
    rw [translate_found hv (hc.trans hf)]
    dsimp only
    rw [hn]
    rfl
  · exact ⟨u, hu, hkeep, .inr ⟨hne, translate_found hv (hc.trans hf)⟩⟩

/-- Settles O54: the one mapping that is cached answers, unless it was dropped. -/
theorem cachedTranslation : Obligations.CachedTranslation := by
  intro k user va s hv
  refine ⟨fun e hn ht hw => ?_, fun e hn ht => ?_⟩
  · have hc : cachedMapping k va s = maybeForget va (.page e.pte) s := by rw [cachedMapping, hn, ht]
    have hneeds : (Mapping.page e.pte).needsWalk k = false := by
      cases k with
      | write => simp [Mapping.needsWalk, hw rfl]
      | _ => rfl
    exact translate_cached hv hc hneeds
  · have hc : cachedMapping k va s = maybeForget va (.segment e.ste) s := by rw [cachedMapping, hn, ht]
    obtain ⟨u, hu, hkeep, h⟩ := translate_cached (user := user) hv hc rfl
    rw [answer_segment] at h
    exact ⟨u, hu, hkeep, h⟩

/-! The walk -/

theorem wordAlign_steAddr (stb va : Word) : wordAlign (steAddr stb va) = steAddr stb va := by
  refine wordAlign_of_aligned ((aligned_iff _ _).2 ?_)
  have h := toNat_append_digits ((stb.extractLsb' 12 20 : BitVec 20) ++ segmentOf va) (0#2 : BitVec 2)
  have h' : (steAddr stb va).toNat = ((stb.extractLsb' 12 20 : BitVec 20) ++ segmentOf va ++ 0#2).toNat := rfl
  have h0 : (0#2 : BitVec 2).toNat = 0 := rfl
  omega

theorem wordAlign_pteAddr (ste va : Word) : wordAlign (pteAddr ste va) = pteAddr ste va := by
  refine wordAlign_of_aligned ((aligned_iff _ _).2 ?_)
  have h := toNat_append_digits ((ste.extractLsb' 12 20 : BitVec 20) ++ (va.extractLsb' 12 10 : BitVec 10)) (0#2 : BitVec 2)
  have h' : (pteAddr ste va).toNat =
    ((ste.extractLsb' 12 20 : BitVec 20) ++ (va.extractLsb' 12 10 : BitVec 10) ++ 0#2).toNat := rfl
  have h0 : (0#2 : BitVec 2).toNat = 0 := rfl
  omega

/-- A walk with RAM everywhere, by the segment table entry it reads. -/
theorem walk_ram (l : Bool) (k : Kind) (user : Bool) {va ste : Word} {s : State} (hb : ramBus s = true)
    (hste : ste = Memory.readBE s.mem (steAddr s.stb va) 4) :
    walk l k user va s =
      if !entryValid ste then .trap (k.fault va) s
      else if entryNonpaged ste then .ok (.segment ste) (loadNpsr k ⟨segmentOf va, ste⟩ s)
      else walkPage l k user va ste s := by
  rw [walk, physRead_ram _ _ _ _ hb, wordAlign_steAddr, ← hste]
  rfl

/-- A page table entry written back, when it changed. -/
def writtenBack (pa old new : Word) (s : State) : State := if new = old then s else physStore pa 4 new s

theorem writeBack_ram (pa old new : Word) (s : State) (hb : ramBus s = true) :
    writeBack pa old new s = .ok () (writtenBack pa old new s) := by
  unfold writeBack writtenBack
  split
  · rfl
  · rw [busTurn_ram _ _ _ hb]

/-- The second half of a walk with RAM everywhere. -/
theorem walkPage_ram (l : Bool) (k : Kind) (user : Bool) {va ste pte : Word} {s : State} (hb : ramBus s = true)
    (hpte : pte = Memory.readBE s.mem (pteAddr ste va) 4) :
    walkPage l k user va ste s =
      if !entryValid pte || !permitted k user pte then .trap (k.fault va) s
      else .ok (.page (touched k pte))
        (loadTlb k ⟨pageOf va, touched k pte⟩ (writtenBack (pteAddr ste va) pte (touched k pte) s)) := by
  rw [walkPage, physRead_ram _ _ _ _ hb, wordAlign_pteAddr, ← hpte, Res.bind_ok, writeBack_ram _ _ _ _ hb]
  rfl

/-! What is loaded and written back -/

theorem loadNpsr_spec (k : Kind) (e : Npsr) (s : State) :
    npsrOf k (loadNpsr k e s) = some e ∧ tlbOf k (loadNpsr k e s) = tlbOf k s ∧ (loadNpsr k e s).mem = s.mem := by
  cases k <;> exact ⟨rfl, rfl, rfl⟩

/-- An entry loaded where there is room is found. -/
theorem loadTlb_spec (k : Kind) (e : TlbEntry) (s : State) (h : (tlbOf k s).length < 32) :
    findTlb e.page (tlbOf k (loadTlb k e s)) = some e ∧ (loadTlb k e s).mem = s.mem := by
  have hstay : ((tlbOf k s).filter fun x => x.page != e.page).length < tlbSize :=
    lt_of_le_of_lt (List.length_filter_le _ _) h
  have hroom : makeRoom e.page (tlbOf k s) s = ((tlbOf k s).filter fun x => x.page != e.page, s) := by
    rw [makeRoom, if_pos hstay]
  have hfind : ∀ xs, findTlb e.page (e :: xs) = some e := fun xs => by simp [findTlb]
  rw [loadTlb, hroom]
  cases k <;> exact ⟨hfind _, rfl⟩

theorem writtenBack_mem (pa old new : Word) (s : State) (hold : old = Memory.readBE s.mem pa 4) :
    Memory.readBE (writtenBack pa old new s).mem pa 4 = new ∧ SameMemoryBut pa 4 s (writtenBack pa old new s) := by
  unfold writtenBack
  split
  · rename_i h
    exact ⟨hold.symm.trans h.symm, fun _ _ => rfl⟩
  · rw [physStore_mem]
    refine ⟨eq_of_bits fun j hj => readBE_writeBE_same _ _ (le_refl 4) _ (by omega), fun x hx => ?_⟩
    rw [physStore_mem]
    exact Memory.read_writeBE_other _ _ _ _ _ fun j hj h => hx ⟨j, hj, h.symm⟩

theorem writtenBack_tlb (k : Kind) (pa old new : Word) (s : State) : tlbOf k (writtenBack pa old new s) = tlbOf k s := by
  unfold writtenBack
  split
  · rfl
  · cases k <;> rfl

/-- R is set, and M for a write (R90). -/
theorem touched_bit (k : Kind) (pte : Word) (j : Nat) :
    (touched k pte).getLsbD j = (pte.getLsbD j || j == 3 || (k == .write && j == 4)) := by
  unfold touched
  rw [getLsbD_putBit _ (by decide)]
  by_cases h3 : j = 3
  · simp [h3]
  · have hb3 : (j == 3) = false := beq_eq_false_iff_ne.2 h3
    cases k with
    | write =>
      rw [if_pos rfl, getLsbD_putBit _ (by decide)]
      by_cases h4 : j = 4
      · simp [h4]
      · have hb4 : (j == 4) = false := beq_eq_false_iff_ne.2 h4
        simp [h3, h4, hb3, hb4]
    | text => simp [h3, hb3, show (Kind.text == Kind.write) = false from rfl]
    | read => simp [h3, hb3, show (Kind.read == Kind.write) = false from rfl]

/-- What a touched entry keeps of the address and the protection. -/
theorem touched_address (k : Kind) (pte va : Word) : pageAddress (touched k pte) va = pageAddress pte va := by
  have h : (touched k pte).extractLsb' 12 20 = pte.extractLsb' 12 20 := by
    refine BitVec.eq_of_getLsbD_eq fun i hi => ?_
    rw [BitVec.getLsbD_extractLsb', BitVec.getLsbD_extractLsb', touched_bit]
    have h3 : (12 + i == 3) = false := by simp; omega
    have h4 : (12 + i == 4) = false := by simp; omega
    simp [h3, h4]
  rw [pageAddress, pageAddress, h]

theorem touched_permitted (k : Kind) (user : Bool) (pte : Word) : permitted k user (touched k pte) = permitted k user pte := by
  have h1 : (touched k pte).getLsbD 1 = pte.getLsbD 1 := by
    rw [touched_bit]
    cases k <;> simp only [Nat.reduceBEq, Bool.or_false, Bool.and_false]
  have h2 : (touched k pte).getLsbD 2 = pte.getLsbD 2 := by
    rw [touched_bit]
    cases k <;> simp only [Nat.reduceBEq, Bool.or_false, Bool.and_false]
  rw [permitted, permitted, entryUser, entryUser, entryWritable, entryWritable, h1, h2]

/-- Settles O53: nothing is cached, so the walk answers, by its entries. -/
theorem pageWalk : Obligations.PageWalk := by
  intro k user va ste pte s hv hb hn ht hroom hste hpte
  have hc : cachedMapping k va s = (none, s) := by rw [cachedMapping, hn, ht]
  have htr : ∀ user, translate k user va s = (walk false k user va s).bind fun m t => m.answer k user va t :=
    fun user => translate_found hv hc
  rw [htr, walk_ram false k user hb hste]
  refine ⟨fun hinv => ?_, fun hval hpaged hbad => ?_, fun hval hnon => ?_, fun hval hpaged hpval hperm => ?_⟩
  · rw [hinv]
    rfl
  · rw [hval, hpaged, walkPage_ram false k user hb hpte]
    have hbad' : (!entryValid pte || !permitted k user pte) = true := by
      rcases hbad with h | h <;> simp [h]
    rw [hbad']
    rfl
  · obtain ⟨h1, h2, h3⟩ := loadNpsr_spec k ⟨segmentOf va, ste⟩ s
    refine ⟨_, h1, h2, h3, ?_⟩
    rw [hval, hnon, ← answer_segment]
    rfl
  · obtain ⟨hread, hsame⟩ := writtenBack_mem (pteAddr ste va) pte (touched k pte) s hpte
    obtain ⟨hfind, hmem⟩ := loadTlb_spec k ⟨pageOf va, touched k pte⟩ (writtenBack (pteAddr ste va) pte (touched k pte) s)
      (by rw [writtenBack_tlb]; exact hroom)
    refine ⟨_, _, ?_, hfind, by rw [hmem]; exact hread, touched_bit k pte, fun x hx => by rw [hmem]; exact hsame x hx⟩
    rw [hval, hpaged, walkPage_ram false k user hb hpte, hpval, hperm]
    show (Mapping.page (touched k pte)).answer k user va _ = _
    rw [answer_page, touched_permitted, touched_address, if_pos hperm]

end Sys2Proof.Machine
end

section
/-! PROOF. A memory fault inside a sequence (spec/60_exceptions.md R379): the access is an internally caused reset of the
state it was made in, and that state has the registers the reset keeps. -/

namespace Sys2Proof.Machine

/-- No stack cache, no bus input to come, and nothing to prefetch: an access is its translation and its bus transaction.
-/
structure Bare (s : State) : Prop where
  noCache  : configSC s.configEff = false
  turns    : s.turns = []
  prefetch : mayPrefetch s = false

theorem Bare.busTurn {s : State} (h : Bare s) (l : Bool) (pa : Word) : busTurn l pa s = (some (busAnswer s.busMap pa), s) := by
  rw [Machine.busTurn, h.turns]

/-- What decides whether an address can be reached. -/
theorem Unreachable.congr {va : Word} {s u : State} (h : Unreachable va s)
    (he : (u.vpEff, u.busMap, u.dataTlb, u.dataNpsr, u.mem, u.stb) = (s.vpEff, s.busMap, s.dataTlb, s.dataNpsr, s.mem, s.stb)) :
    Unreachable va u := by
  simp only [Prod.mk.injEq] at he
  obtain ⟨h1, h2, h3, h4, h5, h6⟩ := he
  rw [Unreachable, h1, h2, h3, h4, h5, h6]
  exact h

/-- An invalid segment that no cached translation covers. -/
theorem translate_unreachable {k : Kind} (hk : k ≠ .text) {user : Bool} {va : Word} {s : State} (hv : s.vpEff = true)
    (hb : ramBus s = true) (ht : s.dataTlb = []) (hn : s.dataNpsr = none)
    (hste : entryValid (Memory.readBE s.mem (steAddr s.stb va) 4) = false) :
    translate k user va s = .trap (k.fault va) s := by
  have htlb : tlbOf k s = [] := by rw [tlbOf, if_neg hk, ht]
  have hnpsr : npsrOf k s = none := by rw [npsrOf, if_neg hk, hn]
  have hc : cachedMapping k va s = (none, s) := by
    rw [cachedMapping, htlb, hnpsr]
    rfl
  rw [translate_found hv hc, walk_ram false k user hb rfl, hste]
  rfl

theorem Bare.dataAddress_unreachable {s : State} (h : Bare s) {k : Kind} (hk : k ≠ .text) {va : Word} {user : Bool}
    (hv : s.vpEff = true) (hb : s.busMap = []) (ht : s.dataTlb = []) (hn : s.dataNpsr = none)
    (hste : entryValid (Memory.readBE s.mem (steAddr s.stb va) 4) = false) :
    dataAddress false k user va s = .trap (k.fault va) s := by
  rw [dataAddress, readAhead_idle _ s h.prefetch, Res.bind_ok]
  exact translate_unreachable hk hv ((ramBus_iff s).2 ⟨hb, h.turns⟩) ht hn hste

theorem Bare.sequenceRead_unreachable {s : State} (h : Bare s) {va : Word} (hu : Unreachable va s) :
    sequenceRead va s = .trap .internalReset s := by
  obtain ⟨ha, ⟨hv, hbus⟩ | ⟨hv, hb, ht, hn, hste⟩⟩ := hu
  · rw [sequenceRead, memRead_bus _ hv h.noCache h.prefetch ha,
      physRead_busError ((h.busTurn false va).trans (by rw [hbus]))]
    rfl
  · simp only [sequenceRead, memRead, checkAccess_ok va 4 s ha, Res.bind_ok, useCache_off _ va h.noCache,
      Bool.false_eq_true, if_false, h.dataAddress_unreachable (by decide : Kind.read ≠ .text) hv hb ht hn hste]
    rfl

theorem Bare.sequenceWrite_unreachable {s : State} (h : Bare s) {va : Word} (v : Word) (hu : Unreachable va s) :
    sequenceWrite va v s = .trap .internalReset s := by
  obtain ⟨ha, ⟨hv, hbus⟩ | ⟨hv, hb, ht, hn, hste⟩⟩ := hu
  · rw [sequenceWrite, memWrite_bus _ v hv h.noCache h.prefetch ha,
      takenWords_busError ((h.busTurn false va).trans (by rw [hbus]))]
    rfl
  · have hd : dataAddress sequenceAccess.locked .write sequenceAccess.user va s = .trap (.dataWriteFault va) s :=
      h.dataAddress_unreachable (by decide : Kind.write ≠ .text) hv hb ht hn hste
    simp only [sequenceWrite, memWrite, prepWrite, checkAccess_ok va 4 s ha, Res.bind_ok, useCache_off _ va h.noCache,
      Bool.false_eq_true, if_false, hd]
    rfl

/-- A frame word that the bus takes. -/
theorem Bare.sequenceWrite_reached {s : State} (h : Bare s) {va : Word} (v : Word) (hv : s.vpEff = false)
    (ha : aligned va 4 = true) (hb : busAnswer s.busMap va = .ram) : sequenceWrite va v s = .ok () (physStore va 4 v s) := by
  have ht : takenWords sequenceAccess va 1 s = .ok 1 s := by
    simp only [takenWords, h.busTurn, hb, Res.bind_ok]
  rw [sequenceWrite, memWrite_bus _ v hv h.noCache h.prefetch ha, ht, Res.bind_ok, commit, laneAddr_word]
  rfl

theorem Bare.physStore {s : State} (h : Bare s) (pa : Word) (n : Nat) (v : Word) : Bare (physStore pa n v s) :=
  ⟨h.noCache, h.turns, h.prefetch⟩

/-- The registers an internally caused reset keeps. -/
def keptPart (s : State) := (s.psw, s.vb, s.stb, s.msp)

theorem restarted_of_kept {s u : State} (h : keptPart u = keptPart s) : Restarted s (resetSequence false u) := by
  simp only [keptPart, Prod.mk.injEq] at h
  obtain ⟨h1, h2, h3, h4⟩ := h
  exact resetSequence_restarted s u h1 h2 h3 h4

/-- An instruction whose part resets the machine. -/
theorem exec_internalReset {i : Instr} {px : Bool} {v : View} {s u : State} (hp : parse i = some (px, v))
    (h : v.run px s = .trap .internalReset u) (hk : keptPart u = keptPart s) :
    ∃ t, exec i s = .next t ∧ Restarted s t ∧ t.mem = u.mem :=
  ⟨_, exec_of_run_trap hp h, restarted_of_kept hk, resetSequence_mem u⟩

theorem settle_internalReset {r : Res Unit} {s u : State} (h : r = .trap .internalReset u) (hk : keptPart u = keptPart s) :
    ∃ t, settleSequence r = .next t ∧ Restarted s t ∧ t.mem = u.mem := by
  subst h
  exact ⟨_, rfl, restarted_of_kept hk, resetSequence_mem u⟩

/-! What the SHAD step and the FAULT register leave -/

theorem frameState_part (e : Trap) (s : State) : keptPart (restoreCsp (recordFault e s)) = keptPart s ∧
    (restoreCsp (recordFault e s)).mem = s.mem := by
  unfold restoreCsp
  split <;> cases e <;> exact ⟨rfl, rfl⟩

theorem restoreCsp_part (s : State) : keptPart (restoreCsp s) = keptPart s ∧ (restoreCsp s).mem = s.mem := by
  unfold restoreCsp
  split <;> exact ⟨rfl, rfl⟩

theorem Bare.frameState {s : State} (h : Bare s) (e : Trap) : Bare (restoreCsp (recordFault e s)) := by
  unfold restoreCsp
  split <;> cases e <;> exact ⟨h.noCache, h.turns, h.prefetch⟩

theorem Unreachable.frameState {va : Word} {s : State} (h : Unreachable va s) (e : Trap) :
    Unreachable va (restoreCsp (recordFault e s)) := by
  refine h.congr ?_
  unfold restoreCsp
  split <;> cases e <;> rfl

theorem Bare.restoreCsp {s : State} (h : Bare s) : Bare (restoreCsp s) := by
  unfold Machine.restoreCsp
  split <;> exact ⟨h.noCache, h.turns, h.prefetch⟩

theorem Unreachable.restoreCsp {va : Word} {s : State} (h : Unreachable va s) : Unreachable va (restoreCsp s) := by
  refine h.congr ?_
  unfold Machine.restoreCsp
  split <;> rfl

/-! The frame, and the vector -/

theorem Bare.pushFrame_unreachable {s : State} (h : Bare s) (pc : Word) (hu : Unreachable (s.isp - 8#32) s) :
    pushFrame pc s = .trap .internalReset s := by
  rw [pushFrame, h.sequenceWrite_unreachable _ hu]
  rfl

theorem Bare.pushFrame_reached {s : State} (h : Bare s) (pc : Word) (hv : s.vpEff = false) (ha : aligned s.isp 4 = true)
    (h8 : busAnswer s.busMap (s.isp - 8#32) = .ram) (h4 : busAnswer s.busMap (s.isp - 4#32) = .ram) :
    pushFrame pc s = .ok () (Machine.physStore (s.isp - 4#32) 4 s.psw (Machine.physStore (s.isp - 8#32) 4 pc s)) := by
  rw [pushFrame, h.sequenceWrite_reached pc hv (aligned_sub _ _ rfl ha) h8, Res.bind_ok]
  exact (h.physStore (s.isp - 8#32) 4 pc).sequenceWrite_reached s.psw hv (aligned_sub _ _ rfl ha) h4

theorem Bare.enterKernel_unreachable {s : State} (h : Bare s) {vector : Word} (hu : Unreachable vector s) :
    ∃ w, enterKernel vector s = .trap .internalReset w ∧ keptPart w = keptPart s := by
  refine ⟨(s.setIsp (s.isp - 16#32)).setShad (s.isp - 16#32), ?_, rfl⟩
  have hb : Bare ((s.setIsp (s.isp - 16#32)).setShad (s.isp - 16#32)) := ⟨h.noCache, h.turns, h.prefetch⟩
  have hu' : Unreachable vector ((s.setIsp (s.isp - 16#32)).setShad (s.isp - 16#32)) := hu
  rw [enterKernel, hb.sequenceRead_unreachable hu']
  rfl

theorem physStore_rest (pa : Word) (n : Nat) (v : Word) (s : State) :
    (physStore pa n v s).vpEff = s.vpEff ∧ (physStore pa n v s).busMap = s.busMap ∧
      keptPart (physStore pa n v s) = keptPart s ∧ (physStore pa n v s).vb = s.vb :=
  ⟨rfl, rfl, rfl, rfl⟩

/-- Where the frame can be written and the vector cannot be read. -/
theorem Bare.frame_then_vector {s : State} (h : Bare s) (pc : Word) {vector : Word} (hv : s.vpEff = false)
    (ha : aligned s.isp 4 = true) (h8 : busAnswer s.busMap (s.isp - 8#32) = .ram)
    (h4 : busAnswer s.busMap (s.isp - 4#32) = .ram) (hu : Unreachable vector s) :
    ∃ v w, pushFrame pc s = .ok () v ∧ v.vb = s.vb ∧ enterKernel vector v = .trap .internalReset w ∧
      keptPart w = keptPart s := by
  obtain ⟨hal, ⟨-, hbus⟩ | ⟨hv', -⟩⟩ := hu
  · have hpush := h.pushFrame_reached pc hv ha h8 h4
    have hb1 := h.physStore (s.isp - 8#32) 4 pc
    obtain ⟨v1, m1, k1, b1⟩ := physStore_rest (s.isp - 8#32) 4 pc s
    generalize Machine.physStore (s.isp - 8#32) 4 pc s = u at *
    have hb2 := hb1.physStore (s.isp - 4#32) 4 s.psw
    obtain ⟨v2, m2, k2, b2⟩ := physStore_rest (s.isp - 4#32) 4 s.psw u
    generalize Machine.physStore (s.isp - 4#32) 4 s.psw u = v at *
    obtain ⟨w, hw, hk⟩ := hb2.enterKernel_unreachable (vector := vector)
      ⟨hal, .inl ⟨v2.trans (v1.trans hv), by rw [m2, m1]; exact hbus⟩⟩
    exact ⟨v, w, hpush, b2.trans b1, hw, hk.trans (k2.trans k1)⟩
  · rw [hv] at hv'
    cases hv'

theorem runKcall_immediate (px : Bool) (o : Word) (n : Nat) (s : State) :
    runKcall px 0xF#4 o n s = (sequenceWrite (s.isp - 12#32) o s).bind fun _ u =>
      (pushFrame (nextPc px n s) u).bind fun _ u =>
      (enterKernel u.vb u).bind fun _ u => retire u.pc { quiet s with flags := flagMask } u := rfl

/-- The first of the three frame words, then the rest, then the vector. -/
theorem Bare.first_then_vector {s : State} (h : Bare s) (first pc : Word) {vector : Word} (hv : s.vpEff = false)
    (ha : aligned s.isp 4 = true)
    (hram : ∀ k : Fin 4, k ≠ 0 → busAnswer s.busMap (s.isp - BitVec.ofNat 32 (4 * k.val)) = .ram)
    (hu : Unreachable vector s) :
    ∃ u v w, sequenceWrite (s.isp - 12#32) first s = .ok () u ∧ u.pc = s.pc ∧ pushFrame pc u = .ok () v ∧ v.vb = s.vb ∧
      enterKernel vector v = .trap .internalReset w ∧ keptPart w = keptPart s := by
  have h4 := hram 1 (by decide)
  have h8 := hram 2 (by decide)
  have hw := h.sequenceWrite_reached first hv (aligned_sub _ _ rfl ha) (hram 3 (by decide))
  have hb := h.physStore (s.isp - 12#32) 4 first
  obtain ⟨hv1, hm1, hk1, hb1⟩ := physStore_rest (s.isp - 12#32) 4 first s
  have hi : (Machine.physStore (s.isp - 12#32) 4 first s).isp = s.isp ∧
    (Machine.physStore (s.isp - 12#32) 4 first s).pc = s.pc := ⟨rfl, rfl⟩
  generalize Machine.physStore (s.isp - 12#32) 4 first s = u at *
  obtain ⟨hal, ⟨-, hbus⟩ | ⟨hv', -⟩⟩ := hu
  · obtain ⟨hisp, hpc⟩ := hi
    obtain ⟨v, w, hpush, hvb, hkern, hk⟩ := hb.frame_then_vector pc (vector := vector) (hv1.trans hv) (by rw [hisp]; exact ha)
      (by rw [hm1, hisp]; exact h8) (by rw [hm1, hisp]; exact h4) ⟨hal, .inl ⟨hv1.trans hv, by rw [hm1]; exact hbus⟩⟩
    exact ⟨u, v, w, hw, hpc, hpush, hvb.trans hb1, hkern, hk.trans hk1⟩
  · rw [hv] at hv'
    cases hv'

/-- What the SHAD step leaves of the bus. -/
theorem frameState_bus (e : Trap) (s : State) : (restoreCsp (recordFault e s)).vpEff = s.vpEff ∧
    (restoreCsp (recordFault e s)).busMap = s.busMap ∧ (restoreCsp (recordFault e s)).vb = s.vb ∧
    (restoreCsp (recordFault e s)).pc = s.pc := by
  unfold restoreCsp
  split <;> cases e <;> exact ⟨rfl, rfl, rfl, rfl⟩

theorem restoreCsp_bus (s : State) : (restoreCsp s).vpEff = s.vpEff ∧ (restoreCsp s).busMap = s.busMap := by
  unfold restoreCsp
  split <;> exact ⟨rfl, rfl⟩

/-- Settles O51: each sequence's first access, and its vector read, end it where they cannot be made. -/
theorem failedSequenceResets : Obligations.FailedSequenceResets := by
  intro s hsc hturns hpre
  have h : Bare s := ⟨hsc, hturns, hpre⟩
  refine ⟨fun e u h1 h2 hu hbad => ?_, fun vector u hu hbad => ?_, fun i px o n hp hbad => ?_, fun hx hbad => ?_,
    fun hx hbad => ?_, fun e u h1 h2 hu hv ha hram hbad => ?_, fun vector u hu hv ha h8 h4 hbad => ?_,
    fun i px o n hp hv ha hram hbad => ?_⟩
  · subst hu
    obtain ⟨hk, hm⟩ := frameState_part e s
    rw [takeTrap_sequence h1 h2, ← hm]
    refine settle_internalReset ?_ hk
    rw [exceptionSequence, (h.frameState e).sequenceWrite_unreachable _ (hbad.frameState e)]
    rfl
  · subst hu
    obtain ⟨hk, hm⟩ := restoreCsp_part s
    rw [← hm]
    refine settle_internalReset ?_ hk
    rw [interruptSequence, h.restoreCsp.pushFrame_unreachable _ hbad.restoreCsp]
    rfl
  · refine exec_internalReset hp ?_ rfl
    show runKcall px 0xF#4 o n s = _
    rw [runKcall_immediate, h.sequenceWrite_unreachable _ hbad]
    rfl
  · refine exec_internalReset (v := .niladic .kret) (px := false) rfl ?_ rfl
    show runKret s = _
    rw [runKret, hx, raiseIf_false, Res.bind_ok, h.sequenceRead_unreachable hbad]
    rfl
  · refine exec_internalReset (v := .niladic .cret) (px := false) rfl ?_ rfl
    show runCret s = _
    rw [runCret, hx, raiseIf_false, Res.bind_ok, h.sequenceRead_unreachable hbad]
    rfl
  · obtain ⟨hk, -⟩ := frameState_part e s
    obtain ⟨hve, hbe, hvb, hpc⟩ := frameState_bus e s
    have hb := h.frameState e
    have hbad' := hbad.frameState e
    have hseq : exceptionSequence e s = (sequenceWrite (u.isp - 12#32) e.identifier u).bind fun _ s =>
      (pushFrame s.pc s).bind fun _ s => (enterKernel (s.vb + 4#32) s).bind fun _ s => .ok () (eventDone s) := by rw [hu]; rfl
    rw [← hu] at hk hve hbe hvb hpc hb hbad'
    obtain ⟨u1, v, w, hw, hpc1, hpush, hvb', hkern, hkw⟩ := hb.first_then_vector e.identifier u.pc (vector := s.vb + 4#32)
      (hve.trans hv) ha (by rw [hbe]; exact hram) hbad'
    rw [takeTrap_sequence h1 h2]
    obtain ⟨t, ht, hr, -⟩ := settle_internalReset (r := exceptionSequence e s) (u := w)
      (by rw [hseq, hw, Res.bind_ok, hpc1, hpush, Res.bind_ok, hvb', hvb, hkern]; rfl) (hkw.trans hk)
    exact ⟨t, ht, hr⟩
  · obtain ⟨hk, -⟩ := restoreCsp_part s
    obtain ⟨hve, hbe⟩ := restoreCsp_bus s
    rw [hu] at ha h8 h4
    obtain ⟨v, w, hpush, -, hkern, hkw⟩ := h.restoreCsp.frame_then_vector s.pc (vector := vector) (hve.trans hv) ha
      (by rw [hbe]; exact h8) (by rw [hbe]; exact h4) hbad.restoreCsp
    obtain ⟨t, ht, hr, -⟩ := settle_internalReset (r := interruptSequence vector s) (u := w)
      (by rw [interruptSequence, hpush, Res.bind_ok, hkern]; rfl) (hkw.trans hk)
    exact ⟨t, ht, hr⟩
  · obtain ⟨u, v, w, hw, -, hpush, hvb, hkern, hk⟩ := h.first_then_vector o (nextPc px n s) (vector := s.vb) hv ha hram hbad
    obtain ⟨t, ht, hr, -⟩ := exec_internalReset (u := w) hp
      (by
        show runKcall px 0xF#4 o n s = _
        rw [runKcall_immediate, hw, Res.bind_ok, hpush, Res.bind_ok, hvb, hkern]
        rfl) hk
    exact ⟨t, ht, hr⟩

end Sys2Proof.Machine
end

section
/-! PROOF. What instructions leave of the control registers and the hidden bits: accesses leave all of them, so only the
last steps of an operation count. -/

namespace Sys2Proof.Machine

/-- The state that no access to memory touches, but PC and what marks an instruction's end. -/
structure Visible where
  config       : Word
  configEff    : Word
  psw          : Word
  isp          : Word
  msp          : Word
  sp           : Word
  shad         : Word
  vb           : Word
  stb          : Word
  fault        : Word
  timer1       : Word
  timer2       : Word
  vpEff        : Bool
  t1Pending    : Bool
  t2Pending    : Bool
  nmiArmed     : Bool
  tracePending : Bool
  busMap       : List BusRegion
  pins         : List Pins

def State.visible (s : State) : Visible :=
  ⟨s.config, s.configEff, s.psw, s.isp, s.msp, s.sp, s.shad, s.vb, s.stb, s.fault, s.timer1, s.timer2, s.vpEff,
    s.t1Pending, s.t2Pending, s.nmiArmed, s.tracePending, s.busMap, s.pins⟩

/-- No access ends a property of it. -/
theorem loose_visible (Q : Visible → Prop) : Loose fun u => Q u.visible where
  free _ _ h := h
  mem _ _ h := h
  pfbStale _ _ h := h
  icStale _ _ h := h
  dataTlb _ _ h := h
  dataNpsr _ _ h := h
  turns _ _ h := h
  textTlb _ _ h := h
  textNpsr _ _ h := h
  cache _ _ h := h
  writeFaults _ _ h := h
  textMaps _ _ h := h
  pfbQuads _ _ h := h
  ahead _ _ h := h

/-- All but PSW is kept, and PSW outside `mask`. -/
def Visible.Kept (mask : Word) (v w : Visible) : Prop :=
  { w with psw := v.psw } = v ∧ w.psw &&& ~~~mask = v.psw &&& ~~~mask

theorem Visible.Kept.refl (mask : Word) (v : Visible) : v.Kept mask v := ⟨rfl, rfl⟩

theorem kept_loose (mask : Word) (s : State) : Loose fun u => s.visible.Kept mask u.visible :=
  loose_visible (s.visible.Kept mask)

/-- A word merged in under a mask is kept outside it. -/
theorem mergeBits_outside {m mask : Word} (h : m &&& ~~~mask = 0#32) (a b : Word) :
    mergeBits m a b &&& ~~~mask = a &&& ~~~mask := by
  refine eq_of_bits fun j hj => ?_
  have hj' := congrArg (fun w : Word => w.getLsbD j) h
  simp only [BitVec.getLsbD_and, BitVec.getLsbD_not, hj, decide_true, Bool.true_and, BitVec.getLsbD_zero] at hj'
  rw [BitVec.getLsbD_and, BitVec.getLsbD_and, getLsbD_mergeBits, BitVec.getLsbD_not]
  cases hm : m.getLsbD j
  · simp
  · rw [hm, Bool.true_and, Bool.not_eq_false'] at hj'
    rw [hj', Bool.not_true, Bool.and_false, Bool.and_false, Bool.and_false]

section
variable {mask : Word} {s u : State} (h : s.visible.Kept mask u.visible)
include h

theorem kept_setPsw {p : Word} (hp : p &&& ~~~mask = u.psw &&& ~~~mask) :
    s.visible.Kept mask (u.setPsw p).visible := ⟨h.1, hp.trans h.2⟩

theorem kept_retire (t : Word) (r : Recent) : (retire t r u).Leaves fun w => s.visible.Kept mask w.visible := h

theorem kept_finish (t : Word) (r : Recent) {c : Calc} (hc : c.mask &&& ~~~mask = 0#32) :
    (finish t r c u).Leaves fun w => s.visible.Kept mask w.visible := kept_setPsw h (mergeBits_outside hc _ _)

theorem kept_unimplementedSequence (off : Word) :
    (unimplementedSequence off u).Leaves fun w => s.visible.Kept mask w.visible :=
  ((kept_loose mask s).memWrite _ _ _ _ h).bind fun _ _ h => ((kept_loose mask s).sequenceRead _ h).bind fun _ _ h => h

end

/-! Destinations that are no register -/

/-- A place that is no register. -/
def Place.inMemory (p : Place) : Prop := ∀ r, p ≠ .register r

theorem accPlace_inMemory (s : State) : (accPlace s).inMemory := fun _ h => by cases h

theorem locate_inMemory {px : Bool} {o : Operand} (h : isRegister px o = false) (n : Nat) (s : State) :
    (locate px n o s).Done fun p _ => p.inMemory := by
  unfold locate
  split
  · intro r h
    cases h
  · intro r h
    cases h
  · refine Res.Done.bind (P := fun _ _ => True) (by cases memRead _ _ _ _ <;> trivial) fun p u _ => ?_
    refine (raiseIf_done _ _ u).bind fun _ _ _ => ?_
    intro r h
    cases h
  · intro r h
    cases h
  · rename_i hk
    obtain ⟨hpx, hm⟩ := (modeKind_register px o.mode).1 hk
    rw [isRegister, hpx, hm] at h
    cases h
  · trivial

theorem openForm_inMemory {px : Bool} {f : Form} (h : isRegister px f.dst = false) (u : DstUse) (s : State) :
    (openForm px u f s).Done fun p _ => p.2.inMemory := by
  refine Res.Done.bind (P := fun _ _ => True) (by cases checkForm px u f s <;> trivial) fun _ s _ => ?_
  refine (raiseIf_done _ _ s).bind fun _ s _ => ?_
  refine Res.Done.bind (P := fun _ _ => True) (by cases locate px _ f.src s <;> trivial) fun _ s _ => ?_
  exact (locate_inMemory h _ s).bind fun _ _ hp => hp

/-- A prepared destination that is no register. -/
def Dest.inMemory (d : Dest) : Prop := ∀ r, d ≠ .register r

/-- A claimed destination that is no register. -/
def Ready.inMemory (d : Ready) : Prop := ∀ r, d ≠ .register r

theorem prepPlace_inMemory (l : Bool) (p : Place) (s : State) :
    (prepPlace l p s).Done fun d _ => p.inMemory → d.inMemory := by
  cases p with
  | register r => exact fun h => absurd rfl (h r)
  | constant v => trivial
  | memory acc va n sg =>
    refine Res.Done.bind (P := fun _ _ => True) (by cases prepWrite _ va n s <;> trivial) fun t u _ => ?_
    intro _ r h
    cases h

theorem claimDest_inMemory (d : Dest) (s : State) : (claimDest d s).Done fun e _ => d.inMemory → e.inMemory := by
  cases d with
  | register r => exact fun h => absurd rfl (h r)
  | memory acc t n =>
    refine Res.Done.bind (P := fun _ _ => True) (by cases claim acc t 1 s <;> trivial) fun g u _ => ?_
    intro _ r h
    cases h

/-- What both of two parts hold of an answer. -/
theorem Res.Done.and {α : Type} {P Q : α → State → Prop} {r : Res α} (h : r.Done P) (g : r.Done Q) :
    r.Done fun a s => P a s ∧ Q a s := by
  cases r with
  | ok a s => exact ⟨h, g⟩
  | _ => trivial

theorem Res.Done.imp {α : Type} {P Q : α → State → Prop} {r : Res α} (h : r.Done P) (hpq : ∀ a s, P a s → Q a s) :
    r.Done Q := by
  cases r with
  | ok a s => exact hpq a s h
  | _ => trivial

theorem Loose.storeDest {P : State → Prop} (L : Loose P) {s : State} (h : P s) {d : Ready} (hd : d.inMemory) (v : Word) :
    P (storeDest d v s) := by
  cases d with
  | register r => exact absurd rfl (hd r)
  | memory g n => exact L.commit g n v h

/-! The steps of a store -/

/-- A place that no operation begun in `s` can store to as a register: it is none, or the level forbids it. -/
def NoRegister (mask : Word) (s : State) (p : Place) : Prop :=
  p.inMemory ∨ ∀ w : State, s.visible.Kept mask w.visible → pswX w.psw = true

/-- A form whose destination no operation begun in `s` can store to as a register. -/
def NoRegisterForm (mask : Word) (s : State) (px : Bool) (f : Form) : Prop :=
  isRegister px f.dst = false ∨ ∀ w : State, s.visible.Kept mask w.visible → pswX w.psw = true

theorem NoRegister.inMemory {mask : Word} {s w : State} {p : Place} (h : NoRegister mask s p)
    (hw : s.visible.Kept mask w.visible) (hp : p.privileged w = false) : p.inMemory := by
  rcases h with h | hx
  · exact h
  · rintro r rfl
    rw [Place.privileged, hx w hw] at hp
    cases hp

/-- An operation that completes keeps what is visible. -/
def Keeps {α : Type} (mask : Word) (s : State) (r : Res α) : Prop := r.Done fun _ w => s.visible.Kept mask w.visible

section
variable {mask : Word} {s u : State} {α : Type} (h : s.visible.Kept mask u.visible)
include h

/-- The operands, and where the destination can be, if the operation has one. -/
theorem openForm_kept {px : Bool} {f : Form} {stores : Prop} (hno : stores → NoRegisterForm mask s px f) (use : DstUse) :
    (openForm px use f u).Done fun p w => s.visible.Kept mask w.visible ∧ (stores → NoRegister mask s p.2) := by
  have hk := ((kept_loose mask s).openForm px use f h).done
  by_cases hs : stores
  · rcases hno hs with hreg | hx
    · exact (hk.and (openForm_inMemory hreg use u)).imp fun p w hw => ⟨hw.1, fun _ => .inl hw.2⟩
    · exact hk.imp fun p w hw => ⟨hw, fun _ => .inr hx⟩
  · exact hk.imp fun p w hw => ⟨hw, fun h => absurd h hs⟩

theorem keeps_readPlace (who : Reader) (p : Place) {g : Word → State → Res α}
    (hg : ∀ v w, s.visible.Kept mask w.visible → Keeps mask s (g v w)) : Keeps mask s ((readPlace who p u).bind g) :=
  ((kept_loose mask s).readPlace who p h).done.bind hg

/-- The checks of a store. -/
theorem keeps_prepared (l : Bool) {p : Place} (hp : NoRegister mask s p) (t : Trap) {g : Dest → State → Res α}
    (hg : ∀ d w, d.inMemory → s.visible.Kept mask w.visible → Keeps mask s (g d w)) :
    Keeps mask s ((prepPlace l p u).bind fun d w => (raiseIf (p.privileged w) t w).bind fun _ w => g d w) := by
  refine (((kept_loose mask s).prepPlace l p h).done.and (prepPlace_inMemory l p u)).bind fun d w hw => ?_
  refine (raiseIf_done _ _ w).bind fun _ w' hw' => ?_
  obtain ⟨rfl, hpriv⟩ := hw'
  exact hg d w' (hw.2 (hp.inMemory hw.1 hpriv)) hw.1

omit h in
theorem keeps_raiseIf (c : Bool) (t : Trap) {g : Unit → State → Res α} (hg : Keeps mask s (g () u)) :
    Keeps mask s ((raiseIf c t u).bind g) := by
  cases c
  · exact hg
  · trivial

/-- The bus transaction of a store, and the store. -/
theorem keeps_claimed {d : Dest} (hd : d.inMemory) {g : Ready → State → Res α}
    (hg : ∀ e w, e.inMemory → s.visible.Kept mask w.visible → Keeps mask s (g e w)) :
    Keeps mask s ((claimDest d u).bind g) :=
  (((kept_loose mask s).claimDest d h).done.and (claimDest_inMemory d u)).bind fun e w hw => hg e w (hw.2 hd) hw.1

theorem kept_storeDest {d : Ready} (hd : d.inMemory) (v : Word) : s.visible.Kept mask (storeDest d v u).visible :=
  (kept_loose mask s).storeDest h hd v

end

/-! Two-operand instructions -/

/-- A mask of flags that lies in another. -/
def Within (m mask : Word) : Prop := m &&& ~~~mask = 0#32

theorem Within.zero (mask : Word) : Within 0#32 mask := BitVec.zero_and

theorem Within.afterStore {c : Calc} {mask : Word} (h : Within c.mask mask) (early : Bool) (p : Place) :
    Within (c.afterStore early p).mask mask := by
  unfold Calc.afterStore
  split
  · exact .zero mask
  · exact h

section
variable {mask : Word} {s : State} {px : Bool} {f : Form}

theorem runBinary_keeps (op : BinOp) (acc : Bool) (hno : acc = false → NoRegisterForm mask s px f)
    (hm : ∀ a b, Within (op.calc a b).mask mask) : Keeps mask s (runBinary op acc px f s) := by
  refine (openForm_kept (.refl _ _) hno _).bind fun p w hw => keeps_readPlace hw.1 _ _ fun a w hw' =>
    keeps_readPlace hw' _ _ fun b w hw'' => ?_
  have hgoal : NoRegister mask s (if acc then accPlace w else p.2) := by
    cases acc with
    | true => exact .inl (accPlace_inMemory w)
    | false => exact hw.2 rfl
  refine keeps_prepared hw'' false hgoal _ fun d w hd hw => keeps_raiseIf _ _ (keeps_claimed hw hd fun e w he hw => ?_)
  exact (kept_finish (kept_storeDest hw he _) _ _ (Within.afterStore (hm a b) _ _)).done

theorem runLock_keeps (op : LockOp) (hno : NoRegisterForm mask s px f) : Keeps mask s (runLock op px f s) := by
  refine (openForm_kept (stores := True) (.refl _ _) (fun _ => hno) _).bind fun p w hw => keeps_readPlace hw.1 _ _
    fun a w hw' => keeps_readPlace hw' _ _ fun b w hw'' => ?_
  refine keeps_prepared hw'' true (hw.2 trivial) _ fun d w hd hw => keeps_claimed hw hd fun e w he hw => ?_
  have hst := kept_storeDest hw he (op.result a b)
  refine (((kept_loose mask s).prepPlace false _ hst).done.and (prepPlace_inMemory false _ _)).bind fun d w hw => ?_
  exact keeps_claimed hw.1 (hw.2 (accPlace_inMemory _)) fun e w he hw => (kept_retire (kept_storeDest hw he _) _ _).done

theorem runCompare_keeps (op : CmpOp) (hm : ∀ a b, Within (op.calc a b).mask mask) : Keeps mask s (runCompare op px f s) :=
  (openForm_kept (stores := False) (.refl _ _) (fun h => h.elim) _).bind fun _ _ hw => keeps_readPlace hw.1 _ _
    fun a _ hw' => keeps_readPlace hw' _ _ fun b _ hw'' => (kept_finish hw'' _ _ (hm a b)).done

theorem runTagged_keeps (op : TagOp) (hno : NoRegisterForm mask s px f) (hm : ∀ a b, Within (op.calc a b).mask mask) :
    Keeps mask s (runTagged op px f s) := by
  refine (openForm_kept (stores := True) (.refl _ _) (fun _ => hno) _).bind fun p w hw => keeps_readPlace hw.1 _ _
    fun a w hw' => keeps_readPlace hw' _ _ fun b w hw'' => ?_
  dsimp only
  split
  · exact keeps_raiseIf _ _ (kept_finish hw'' _ _ (hm a b)).done
  · refine keeps_prepared hw'' false (hw.2 trivial) _ fun d w hd hw => keeps_claimed hw hd fun e w he hw => ?_
    exact (kept_finish (kept_storeDest hw he _) _ _ (Within.afterStore (hm a b) _ _)).done

theorem runMov_keeps (hno : NoRegisterForm mask s px f) : Keeps mask s (runMov px f s) := by
  refine (openForm_kept (stores := True) (.refl _ _) (fun _ => hno) _).bind fun p w hw => keeps_readPlace hw.1 _ _
    fun a w hw' => ?_
  refine keeps_prepared hw' false (hw.2 trivial) _ fun d w hd hw => keeps_claimed hw hd fun e w he hw => ?_
  exact (kept_retire (kept_storeDest hw he _) _ _).done

theorem runMova_keeps : Keeps mask s (runMova px f s) := by
  refine (raiseIf_done _ _ s).bind fun _ w hw => ?_
  obtain ⟨rfl, hlegal⟩ := hw
  have hreg : isRegister px f.dst = false := by
    simp only [movaLegal, Bool.not_eq_false', Bool.and_eq_true, Bool.not_eq_true'] at hlegal
    exact hlegal.2
  refine keeps_raiseIf _ _ (((kept_loose mask w).effectiveAddress _ (.refl _ _)).done.bind fun ea u hu => ?_)
  refine (((kept_loose mask w).locate px _ f.dst hu).done.and (locate_inMemory hreg _ u)).bind fun p u hu => ?_
  refine (((kept_loose mask w).prepPlace false p hu.1).done.and (prepPlace_inMemory false p u)).bind fun d u hd => ?_
  exact keeps_claimed hd.1 (hd.2 hu.2) fun e u he hu => (kept_retire (kept_storeDest hu he _) _ _).done

theorem runDqm_keeps : Keeps mask s (runDqm px f s) := by
  have L := kept_loose mask s
  have hsource : ∀ p n u, s.visible.Kept mask u.visible → (dqmSource p n u).Leaves fun w => s.visible.Kept mask w.visible := by
    intro p n u h
    cases p with
    | memory acc va sz sg => exact L.readWords _ _ _ h
    | _ => exact h
  have htarget : ∀ p n u, s.visible.Kept mask u.visible → (dqmTarget p n u).Leaves fun w => s.visible.Kept mask w.visible := by
    intro p n u h
    cases p with
    | memory acc va sz sg => exact (L.prepWrite _ _ _ h).bind fun _ _ h => L.claim _ _ _ h
    | _ => exact h
  unfold runDqm
  split
  · trivial
  · exact keeps_raiseIf _ _ (keeps_raiseIf _ _ ((L.locate _ _ _ (.refl _ _)).bind fun _ _ h =>
      (L.locate _ _ _ h).bind fun _ _ h => (hsource _ _ _ h).bind fun ws _ h => (htarget _ _ _ h).bind fun g _ h =>
        kept_retire (L.commitWords ws g h) _ _).done)

end

theorem Within.self (mask : Word) : Within mask mask := BitVec.and_not_self _

/-- What lies in a mask that lies in another lies there too. -/
theorem Within.trans {a b c : Word} (h : Within a b) (g : Within b c) : Within a c := by
  refine eq_of_bits fun j hj => ?_
  have h' := congrArg (fun w : Word => w.getLsbD j) h
  have g' := congrArg (fun w : Word => w.getLsbD j) g
  simp only [BitVec.getLsbD_and, BitVec.getLsbD_not, BitVec.getLsbD_zero, hj, decide_true, Bool.true_and] at h' g' ⊢
  revert h' g'
  cases a.getLsbD j <;> cases b.getLsbD j <;> simp

theorem BinOp.mask_within (op : BinOp) (acc : Bool) (a b : Word) : Within (op.calc a b).mask (DyOp.binary op acc).flags := by
  cases op <;> exact .self _

theorem CmpOp.mask_within (op : CmpOp) (a b : Word) : Within (op.calc a b).mask (DyOp.compare op).flags := by
  cases op <;> exact .self _

theorem TagOp.mask_within (op : TagOp) (a b : Word) : Within (op.calc a b).mask (DyOp.tagged op).flags := by
  have key : ∀ r c v, Within (calcTagged a b r c v).mask (DyOp.tagged op).flags := by
    intro r c v
    unfold calcTagged
    split
    · exact (by decide : flagBit flagF true &&& ~~~(flagBit flagF true ||| maskCV) = 0#32)
    · exact .self _
  cases op <;> exact key _ _ _

/-- Every two-operand operation keeps what is visible, but the flags of its kind and a register destination. -/
theorem DyOp.run_keeps {op : DyOp} {px : Bool} {f : Form} {mask : Word} {s : State} (hm : Within op.flags mask)
    (hno : op.writes = true → NoRegisterForm mask s px f) : Keeps mask s (op.run px f s) := by
  cases op with
  | binary op acc =>
    refine runBinary_keeps op acc (fun h => hno ?_) fun a b => (op.mask_within acc a b).trans hm
    rw [DyOp.writes, h]
    rfl
  | lock op => exact runLock_keeps op (hno rfl)
  | compare op => exact runCompare_keeps op fun a b => (op.mask_within a b).trans hm
  | tagged op => exact runTagged_keeps op (hno rfl) fun a b => (op.mask_within a b).trans hm
  | mov => exact runMov_keeps (hno rfl)
  | mova => exact runMova_keeps
  | dqm => exact runDqm_keeps
  | unimplemented => exact keeps_raiseIf _ _ (kept_unimplementedSequence (.refl _ _) _).done

/-- What was kept, field by field. -/
theorem Visible.Kept.fields {mask : Word} {s u : State} (h : s.visible.Kept mask u.visible) :
    SameRegisters s u ∧ SameEvents s u ∧ u.shad = s.shad ∧ u.configEff = s.configEff ∧ u.vpEff = s.vpEff ∧
      u.psw &&& ~~~mask = s.psw &&& ~~~mask := by
  obtain ⟨hv, hp⟩ := h
  simp only [State.visible, Visible.mk.injEq] at hv
  obtain ⟨h1, h2, -, h4, h5, h6, h7, h8, h9, h10, h11, h12, h13, h14, h15, h16, h17, h18, h19⟩ := hv
  exact ⟨⟨h1, h4, h5, h6, h8, h9, h10, h11, h12⟩, ⟨h14, h15, h16, h17, h18, h19⟩, h7, h2, h13, hp⟩

/-- An operation that completes, in an instruction that no event took. -/
theorem exec_keeps {i : Instr} {px : Bool} {v : View} {mask : Word} {s t : State} (hp : parse i = some (px, v))
    (h : Keeps mask s (v.run px s)) (ht : exec i s = .next t) (he : t.ended ≠ .event) :
    s.visible.Kept mask t.visible := by
  rw [exec_of_parse s hp] at ht
  exact settle_done h ht he

/-- Settles O36: accesses keep what is visible, and the flags are merged in under the operation's mask. -/
theorem dyadicRegisterFrame : Obligations.DyadicRegisterFrame := by
  intro i op px f s t hp hreg ht he
  exact (exec_keeps hp (DyOp.run_keeps (.self _) fun hw => .inl (hreg hw)) ht he).fields

/-! One- and no-operand instructions -/

section
variable {s : State}

theorem keeps_checkMonadic {mask : Word} {α : Type} (m : BitVec 4) {g : Unit → State → Res α} (hg : Keeps mask s (g () s)) :
    Keeps mask s ((checkMonadic m s).bind g) := keeps_raiseIf _ _ hg

theorem runJmp_keeps (mask : Word) (m : BitVec 4) (o : Word) : Keeps mask s (runJmp m o s) :=
  keeps_checkMonadic m (((kept_loose mask s).flowTarget _ _ (.refl _ _)).bind fun _ _ h => kept_retire h _ _).done

theorem runJmpIf_keeps (mask : Word) (b px : Bool) (m : BitVec 4) (o : Word) (n : Nat) :
    Keeps mask s (runJmpIf b px m o n s) :=
  keeps_raiseIf _ _ (((kept_loose mask s).flowTarget _ _ (.refl _ _)).bind fun _ _ h => kept_retire h _ _).done

theorem runCall_keeps (mask : Word) (px : Bool) (m : BitVec 4) (o : Word) (n : Nat) : Keeps mask s (runCall px m o n s) := by
  have L := kept_loose mask s
  exact keeps_checkMonadic m (keeps_raiseIf _ _ ((L.memWrite _ _ _ _ (.refl _ _)).bind fun _ _ h =>
    (L.flowTarget _ _ h).bind fun _ _ h => kept_retire h _ _).done)

theorem runLdraa_keeps (mask : Word) (px : Bool) (m : BitVec 4) (o : Word) (n : Nat) :
    Keeps mask s (runLdraa px m o n s) := by
  refine keeps_checkMonadic m (((kept_loose mask s).flowTarget _ _ (.refl _ _)).done.bind fun _ u h => ?_)
  refine (((kept_loose mask s).prepPlace false _ h).done.and (prepPlace_inMemory false (accPlace u) u)).bind fun d w hw => ?_
  exact keeps_claimed hw.1 (hw.2 (accPlace_inMemory u)) fun e w he hw => (kept_retire (kept_storeDest hw he _) _ _).done

theorem flushOperand_keeps (mask : Word) (m : BitVec 4) (o : Word) :
    (flushOperand m o s).Leaves fun w => s.visible.Kept mask w.visible :=
  (raiseIf_leaves (P := fun w => s.visible.Kept mask w.visible) (.refl _ _) _ _).bind fun _ _ h =>
    (kept_loose mask s).effectiveAddress _ h

theorem runFlushpte_keeps (mask : Word) (px : Bool) (m : BitVec 4) (o : Word) (n : Nat) :
    Keeps mask s (runFlushpte px m o n s) :=
  keeps_checkMonadic m ((flushOperand_keeps mask m o).bind fun a _ h =>
    kept_retire ((kept_loose mask s).flushPage a h) _ _).done

theorem flushAddress_leaves {P : State → Prop} (L : Loose P) (va : Word) {u : State} (h : P u) :
    (flushAddress va u).Leaves P := by
  have hor : ∀ r : Res (Option Word), r.Leaves P → (orNone r).Leaves P := by
    intro r hr
    unfold orNone
    split <;> exact hr
  unfold flushAddress
  refine .ite h (hor _ ((L.physRead _ _ _ h).bind fun ste _ h => .ite h (.ite h ?_)))
  exact (L.physRead _ _ _ h).bind fun _ _ h => h

theorem runFlushpbe_keeps (mask : Word) (px : Bool) (m : BitVec 4) (o : Word) (n : Nat) :
    Keeps mask s (runFlushpbe px m o n s) := by
  have L := kept_loose mask s
  have htarget : ∀ a u, s.visible.Kept mask u.visible →
      (flushTarget a u).Leaves fun w => s.visible.Kept mask w.visible := by
    intro a u h
    refine Res.Leaves.bind ?_ fun _ _ h => flushAddress_leaves L a h
    exact .ite (L.readAhead _ h) h
  refine keeps_checkMonadic m ((flushOperand_keeps mask m o).bind fun a _ h => (htarget _ _ h).bind fun pa u h => ?_).done
  refine kept_retire ?_ _ _
  cases pa with
  | none => exact h
  | some pa => exact h

end

/-- A flag written is kept outside a mask that has it. -/
theorem putBit_outside {i : Nat} (hi : i < 32) {mask : Word} (h : Within (flagBit i true) mask) (p : Word) (b : Bool) :
    putBit p i b &&& ~~~mask = p &&& ~~~mask := by
  rw [← mergeBits_flagBit hi]
  exact mergeBits_outside h _ _

theorem flags_within : Within (flagBit flagF true) flagMask ∧ Within (flagBit flagV true) flagMask ∧
    Within (flagBit flagC true) flagMask ∧ Within (flagBit flagE true) flagMask := by
  unfold Within
  decide

theorem DyOp.flags_within (op : DyOp) : Within op.flags flagMask := by
  cases op with
  | binary op acc =>
    show (DyOp.binary op acc).flags &&& ~~~flagMask = 0#32
    cases op <;> cases acc <;> decide
  | compare op => exact Machine.flags_within.1
  | tagged op => exact (by decide : (flagBit flagF true ||| maskCV) &&& ~~~flagMask = 0#32)
  | _ => exact .zero _

theorem runTest_keeps {i : Nat} (hi : i < 32) (h : Within (flagBit i true) flagMask) (s : State) :
    Keeps flagMask s (runTest i s) := by
  obtain ⟨hF, -⟩ := flags_within
  exact kept_setPsw (s := s) (.refl _ _) ((putBit_outside hi h _ _).trans (putBit_outside (by decide) hF _ _))

/-- At user level, every niladic. -/
theorem NilOp.run_keeps (op : NilOp) {s : State} (hx : pswX s.psw = true) : Keeps flagMask s (op.run s) := by
  obtain ⟨-, hV, hC, hE⟩ := Machine.flags_within
  have hpriv : ∀ g : Unit → State → Res Unit, Keeps flagMask s ((raiseIf (pswX s.psw) .privilegeViolation s).bind g) := by
    intro g
    rw [hx]
    trivial
  cases op with
  | kret => exact hpriv _
  | cret => exact hpriv _
  | nop => exact .refl _ _
  | flushi => exact .refl _ _
  | flushp => exact .refl _ _
  | testv => exact runTest_keeps (by decide) hV s
  | testc => exact runTest_keeps (by decide) hC s
  | clre => exact kept_setPsw (s := s) (.refl _ _) (putBit_outside (by decide) hE _ _)
  | unimplemented => exact (kept_unimplementedSequence (.refl _ _) _).done
  | trapped => exact (kept_unimplementedSequence (.refl _ _) _).done

/-! The stack instructions and KCALL -/

/-- All but PSW, the stack pointers and SHAD. -/
def Visible.system (v : Visible) : Visible := { v with psw := 0#32, isp := 0#32, msp := 0#32, sp := 0#32, shad := 0#32 }

/-- All but MSP. -/
def Visible.noMsp (v : Visible) : Visible := { v with msp := 0#32 }

/-- All but PSW, ISP and SHAD. -/
def Visible.noFrame (v : Visible) : Visible := { v with psw := 0#32, isp := 0#32, shad := 0#32 }

/-- What a stack instruction keeps. -/
def StackKept (s u : State) : Prop :=
  u.visible.system = s.visible.system ∧ u.psw &&& ~~~flagMask = s.psw &&& ~~~flagMask

/-- What CATCH keeps: all but MSP. -/
def CatchKept (s u : State) : Prop := u.visible.noMsp = s.visible.noMsp

/-- What KCALL keeps: all but PSW, ISP and SHAD. -/
def KcallKept (s u : State) : Prop := u.visible.noFrame = s.visible.noFrame

theorem stackKept_loose (s : State) : Loose (StackKept s) :=
  loose_visible fun v => v.system = s.visible.system ∧ v.psw &&& ~~~flagMask = s.psw &&& ~~~flagMask

theorem catchKept_loose (s : State) : Loose (CatchKept s) :=
  loose_visible fun v => v.noMsp = s.visible.noMsp

theorem kcallKept_loose (s : State) : Loose (KcallKept s) :=
  loose_visible fun v => v.noFrame = s.visible.noFrame

section
variable {s u : State}

theorem StackKept.setCsp (h : StackKept s u) (v : Word) : StackKept s (setCsp v u) := by
  unfold Machine.setCsp
  split
  · exact h
  · exact h

theorem StackKept.popFrame (h : StackKept s u) (off : Word) : StackKept s (popFrame off u) := by
  have hc := h.setCsp (csp u + quadAlign off)
  unfold Machine.popFrame
  dsimp only
  split
  · exact hc
  · exact hc

theorem runReturn_keeps (m : BitVec 4) (o : Word) : (runReturn m o s).Done fun _ w => StackKept s w :=
  Res.Leaves.done ((raiseIf_leaves (P := StackKept s) ⟨rfl, rfl⟩ _ _).bind fun _ _ h =>
    ((stackKept_loose s).memRead _ _ _ h).bind fun _ _ h => h.popFrame o)

theorem runPopn_keeps (px : Bool) (m : BitVec 4) (o : Word) (n : Nat) :
    (runPopn px m o n s).Done fun _ w => StackKept s w :=
  Res.Leaves.done ((raiseIf_leaves (P := StackKept s) ⟨rfl, rfl⟩ _ _).bind fun _ _ h => h.popFrame o)

theorem flushQuads_keeps (t : Option Word) (n : Nat) (h : StackKept s u) : (flushQuads t n u).Leaves (StackKept s) := by
  have L := stackKept_loose s
  induction n generalizing u with
  | zero => exact h
  | succ k ih =>
    have hquad : (flushQuad u).Leaves (StackKept s) := (L.dataAddress _ _ _ _ h).bind fun pa _ h =>
      (L.claim _ _ _ h).bind fun g w h => L.commitWords _ g h
    unfold flushQuads
    exact .ite (hquad.bind fun _ _ h => ih h) h

theorem enterDone_keeps (t : Word) (s0 : State) (h : StackKept s u) : (enterDone t s0 u).Leaves (StackKept s) := by
  obtain ⟨-, -, -, hE⟩ := flags_within
  exact ⟨h.1, (putBit_outside (by decide) hE _ _).trans h.2⟩

theorem unknownCells_keeps (h : StackKept s u) : StackKept s (unknownCells u) := by
  unfold unknownCells
  generalize (if configSC u.configEff then !windowOk u else u.sp != u.msp) = c
  cases c
  · exact h
  · exact (stackKept_loose s).scrambleCells _ h

theorem enterWith_keeps (next : Word) (m : BitVec 4) (o : Word) (s0 : State) (h : StackKept s u) :
    (enterWith next m o s0 u).Leaves (StackKept s) := by
  have L := stackKept_loose s
  refine (L.frameTarget _ _ h).bind fun v u h => .ite ?_ (.ite ?_ ?_)
  · exact (L.checkStore _ h).bind fun _ _ h => enterDone_keeps _ _ (h.setCsp _)
  · refine (flushQuads_keeps _ _ (unknownCells_keeps h)).bind fun _ u h => (L.checkStore _ h).bind fun _ w h => ?_
    refine (Res.Leaves.ite (P := StackKept s) (a := .ok () w) h (L.checkStore _ h)).bind fun _ w h => enterDone_keeps _ _ ?_
    exact L.scrambleCells _ (h.setCsp _)
  · exact (flushQuads_keeps _ _ (unknownCells_keeps h)).bind fun _ u h => (L.checkStore _ h).bind fun _ _ h =>
      enterDone_keeps _ _ (h.setCsp _)

theorem runEnter_keeps (px : Bool) (m : BitVec 4) (o : Word) (n : Nat) :
    (runEnter px m o n s).Done fun _ w => StackKept s w := by
  have L := stackKept_loose s
  have hcheck : (checkEnter m o n s).Leaves (StackKept s) := by
    unfold checkEnter
    split
    · exact ⟨rfl, rfl⟩
    · split
      · trivial
      · exact ⟨rfl, rfl⟩
  have hframe : ∀ u, StackKept s u → (checkFrame u).Leaves (StackKept s) := fun u h => .ite trivial h
  exact Res.Leaves.done (hcheck.bind fun _ _ h => (hframe _ h).bind fun _ _ h =>
    (enterWith_keeps _ _ _ _ (L.restoreLost h)).after fun _ h => L.dropLost _ _ h)

theorem catchQuads_keeps (t : Word) (n : Nat) (h : CatchKept s u) : (catchQuads t n u).Leaves (CatchKept s) := by
  have L := catchKept_loose s
  induction n generalizing u with
  | zero => exact h
  | succ k ih =>
    unfold catchQuads
    refine .ite ((L.checkStore _ h).bind fun _ _ h => (L.memoryQuad _ _ h).bind fun ws w h => ih ?_) h
    exact L.commitWords ws (.cell w.msp) h

theorem runCatch_keeps (px : Bool) (m : BitVec 4) (o : Word) (n : Nat) :
    (runCatch px m o n s).Done fun _ w => CatchKept s w := by
  have hframe : ∀ u, CatchKept s u → (checkFrame u).Leaves (CatchKept s) := fun u h => .ite trivial h
  exact Res.Leaves.done ((raiseIf_leaves (P := CatchKept s) rfl _ _).bind fun _ _ h => .ite h ((hframe _ h).bind
    fun _ _ h => ((catchKept_loose s).frameTarget _ _ h).bind fun _ _ h => (catchQuads_keeps _ _ h).bind fun _ _ h => h))

theorem runKcall_keeps (px : Bool) (m : BitVec 4) (o : Word) (n : Nat) :
    (runKcall px m o n s).Done fun _ w => KcallKept s w := by
  have L := kcallKept_loose s
  refine Res.Leaves.done ((raiseIf_leaves (P := KcallKept s) rfl _ _).bind fun _ _ h => Res.Leaves.bind ?_ fun v _ h => ?_)
  · exact (raiseIf_leaves h _ _).bind fun _ _ h => (L.locate _ _ _ h).bind fun p _ h => L.readPlace _ p h
  · refine (L.sequenceWrite _ _ h).bind fun _ _ h => Res.Leaves.bind ?_ fun _ w h => Res.Leaves.bind ?_ fun _ _ h => h
    · exact (L.sequenceWrite _ _ h).bind fun _ _ h => L.sequenceWrite _ _ h
    · exact Res.Leaves.bind (P := KcallKept s) (L.sequenceRead _ (s := (w.setIsp (w.isp - 16#32)).setShad (w.isp - 16#32)) h)
        fun _ _ h => h

end

/-! At user level -/

/-- What O41 asks of a state, by what of it an instruction may move: PSW's upper part, the stack's pointers, the frame's. -/
structure UserKept (s t : State) (psw stack frame : Prop) : Prop where
  config    : t.config = s.config
  configEff : t.configEff = s.configEff
  vb        : t.vb = s.vb
  stb       : t.stb = s.stb
  fault     : t.fault = s.fault
  timer1    : t.timer1 = s.timer1
  timer2    : t.timer2 = s.timer2
  vpEff     : t.vpEff = s.vpEff
  events    : SameEvents s t
  level     : psw ∨ t.psw &&& ~~~flagMask = s.psw &&& ~~~flagMask
  pointers  : stack ∨ (t.sp = s.sp ∧ t.msp = s.msp)
  base      : frame ∨ (t.isp = s.isp ∧ t.shad = s.shad)

section
variable {s t : State} {psw stack frame : Prop}

theorem Visible.Kept.user (h : s.visible.Kept flagMask t.visible) : UserKept s t psw stack frame := by
  obtain ⟨hr, he, hshad, hceff, hvp, hp⟩ := h.fields
  exact ⟨hr.config, hceff, hr.vb, hr.stb, hr.fault, hr.timer1, hr.timer2, hvp, he, .inr hp, .inr ⟨hr.sp, hr.msp⟩,
    .inr ⟨hr.isp, hshad⟩⟩

theorem StackKept.user (h : StackKept s t) (hstack : stack) (hframe : frame) : UserKept s t psw stack frame := by
  obtain ⟨hv, hp⟩ := h
  simp only [State.visible, Visible.system, Visible.mk.injEq] at hv
  obtain ⟨h1, h2, -, -, -, -, -, h8, h9, h10, h11, h12, h13, h14, h15, h16, h17, h18, h19⟩ := hv
  exact ⟨h1, h2, h8, h9, h10, h11, h12, h13, ⟨h14, h15, h16, h17, h18, h19⟩, .inr hp, .inl hstack, .inl hframe⟩

theorem CatchKept.user (h : CatchKept s t) (hstack : stack) : UserKept s t psw stack frame := by
  simp only [CatchKept, State.visible, Visible.noMsp, Visible.mk.injEq] at h
  obtain ⟨h1, h2, h3, h4, -, h6, h7, h8, h9, h10, h11, h12, h13, h14, h15, h16, h17, h18, h19⟩ := h
  exact ⟨h1, h2, h8, h9, h10, h11, h12, h13, ⟨h14, h15, h16, h17, h18, h19⟩, .inr (by rw [h3]), .inl hstack, .inr ⟨h4, h7⟩⟩

theorem KcallKept.user (h : KcallKept s t) (hpsw : psw) (hframe : frame) : UserKept s t psw stack frame := by
  simp only [KcallKept, State.visible, Visible.noFrame, Visible.mk.injEq] at h
  obtain ⟨h1, h2, -, -, h5, h6, -, h8, h9, h10, h11, h12, h13, h14, h15, h16, h17, h18, h19⟩ := h
  exact ⟨h1, h2, h8, h9, h10, h11, h12, h13, ⟨h14, h15, h16, h17, h18, h19⟩, .inl hpsw, .inr ⟨h6, h5⟩, .inl hframe⟩

end

/-- The level is no flag. -/
theorem pswX_kept {s w : State} (h : s.visible.Kept flagMask w.visible) : pswX w.psw = pswX s.psw := by
  obtain ⟨-, -, -, -, -, hp⟩ := h.fields
  have h10 := congrArg (fun v : Word => v.getLsbD 10) hp
  have hm : flagMask.getLsbD 10 = false := by decide
  simp only [BitVec.getLsbD_and, BitVec.getLsbD_not, hm, Bool.not_false, Bool.and_true, Nat.reduceLT, decide_true] at h10
  exact h10

/-- Every monadic that is no stack instruction and not KCALL. -/
theorem MonOp.run_keeps {op : MonOp} (hk : op ≠ .kcall) (he : op ≠ .enter) (hr : op ≠ .ret) (hp : op ≠ .popn)
    (hc : op ≠ .catching) (mask : Word) (px : Bool) (m : BitVec 4) (o : Word) (n : Nat) (s : State) :
    Keeps mask s (op.run px m o n s) := by
  cases op with
  | kcall => exact absurd rfl hk
  | enter => exact absurd rfl he
  | ret => exact absurd rfl hr
  | popn => exact absurd rfl hp
  | catching => exact absurd rfl hc
  | call => exact runCall_keeps mask px m o n
  | jmp => exact runJmp_keeps mask m o
  | jmpIf b => exact runJmpIf_keeps mask b px m o n
  | ldraa => exact runLdraa_keeps mask px m o n
  | flushpte => exact runFlushpte_keeps mask px m o n
  | flushpbe => exact runFlushpbe_keeps mask px m o n
  | unimplemented => exact keeps_checkMonadic m (kept_unimplementedSequence (.refl _ _) _).done

/-- Settles O41: a register destination and KRET and CRET are privileged, so only the flags and the stack's own registers
move. -/
theorem userLevelKeepsSystemState : Obligations.UserLevelKeepsSystemState := by
  intro i s t hx ht he
  suffices h : UserKept s t (∃ px m o n, parse i = some (px, .monadic .kcall m o n))
      (∃ px op m o n, parse i = some (px, .monadic op m o n) ∧ (op = .enter ∨ op = .ret ∨ op = .popn ∨ op = .catching))
      (∃ px op m o n, parse i = some (px, .monadic op m o n) ∧ (op = .kcall ∨ op = .enter ∨ op = .ret ∨ op = .popn)) by
    exact ⟨h.config, h.configEff, h.vb, h.stb, h.fault, h.timer1, h.timer2, h.vpEff, h.events, h.level, h.pointers, h.base⟩
  cases hp : parse i with
  | none =>
    rw [exec_of_no_parse s hp] at ht
    cases ht
  | some pv =>
    obtain ⟨px, v⟩ := pv
    have hdone : ∀ {P : State → Prop}, ((v.run px s).Done fun _ w => P w) → P t := by
      intro P h
      rw [exec_of_parse s hp] at ht
      exact settle_done h ht he
    cases v with
    | dyadic op f =>
      exact (hdone (DyOp.run_keeps op.flags_within fun _ => .inr fun w hw => (pswX_kept hw).trans hx)).user
    | niladic op => exact (hdone (op.run_keeps hx)).user
    | monadic op m o n =>
      by_cases hk : op = .kcall
      · subst hk
        exact (hdone (runKcall_keeps px m o n)).user ⟨px, m, o, n, rfl⟩ ⟨px, _, m, o, n, rfl, .inl rfl⟩
      by_cases hen : op = .enter
      · subst hen
        exact (hdone (runEnter_keeps px m o n)).user ⟨px, _, m, o, n, rfl, .inl rfl⟩ ⟨px, _, m, o, n, rfl, .inr (.inl rfl)⟩
      by_cases hr : op = .ret
      · subst hr
        exact (hdone (runReturn_keeps m o)).user ⟨px, _, m, o, n, rfl, .inr (.inl rfl)⟩
          ⟨px, _, m, o, n, rfl, .inr (.inr (.inl rfl))⟩
      by_cases hpn : op = .popn
      · subst hpn
        exact (hdone (runPopn_keeps px m o n)).user ⟨px, _, m, o, n, rfl, .inr (.inr (.inl rfl))⟩
          ⟨px, _, m, o, n, rfl, .inr (.inr (.inr rfl))⟩
      by_cases hc : op = .catching
      · subst hc
        exact (hdone (runCatch_keeps px m o n)).user ⟨px, _, m, o, n, rfl, .inr (.inr (.inr rfl))⟩
      exact (hdone (MonOp.run_keeps hk hen hr hpn hc flagMask px m o n s)).user

end Sys2Proof.Machine
end

section
/-! PROOF. What instructions leave of memory and the stack cache: before its store an instruction changes neither, and a
store changes its own bytes or its own cell. -/

namespace Sys2Proof.Machine

/-- What decides where an access goes and what it finds. -/
structure Held where
  mem       : Memory
  cache     : Vector Word 64
  psw       : Word
  configEff : Word
  vpEff     : Bool
  turns     : List BusTurn
  sp        : Word
  msp       : Word
  isp       : Word

def State.held (s : State) : Held := ⟨s.mem, s.cache, s.psw, s.configEff, s.vpEff, s.turns, s.sp, s.msp, s.isp⟩

/-- Nothing that an access depends on has changed. -/
def Settled (s u : State) : Prop := u.held = s.held

theorem Settled.refl (s : State) : Settled s s := rfl

/-- Physical addressing, a usable stack cache window, and no bus input to come. -/
structure Placid (s : State) : Prop where
  physical : s.vpEff = false
  window   : usable s = true
  noTurns  : s.turns = []

section
variable {s u : State} (h : Settled s u)
include h

theorem Settled.parts : u.mem = s.mem ∧ u.cache = s.cache ∧ u.psw = s.psw ∧ u.configEff = s.configEff ∧
    u.vpEff = s.vpEff ∧ u.turns = s.turns ∧ u.sp = s.sp ∧ u.msp = s.msp ∧ u.isp = s.isp := by
  simpa only [Settled, State.held, Held.mk.injEq] using h

theorem Settled.same : u.mem = s.mem ∧ u.cache = s.cache := by
  obtain ⟨hm, hc, -⟩ := h.parts
  exact ⟨hm, hc⟩

theorem Settled.mem : u.mem = s.mem := h.parts.1

theorem Settled.cache : u.cache = s.cache := h.parts.2.1

theorem Settled.csp : csp u = csp s := by
  obtain ⟨-, -, hp, -, -, -, hsp, -, hisp⟩ := h.parts
  rw [Machine.csp, Machine.csp, hp, hsp, hisp]

theorem Settled.little : little u = little s := by
  obtain ⟨-, -, hp, hc, -⟩ := h.parts
  rw [Machine.little, Machine.little, hp, hc]

theorem Settled.usable : usable u = usable s := by
  obtain ⟨-, -, -, hc, -, -, hsp, hmsp, -⟩ := h.parts
  rw [Machine.usable, Machine.usable, windowOk, windowOk, hc, hsp, hmsp]

theorem Placid.settled (hs : Placid s) : Placid u := by
  obtain ⟨-, -, -, -, hv, ht, -⟩ := h.parts
  exact ⟨hv.trans hs.physical, h.usable.trans hs.window, ht.trans hs.noTurns⟩

/-- What is kept of the state just before a store is kept of the one before the accesses. -/
theorem Settled.frame {w : State} {p : Place} (hw : p.Frame u w) : p.Frame s w := by
  cases p with
  | memory acc va n sg =>
    have hw : SameMemoryBut (laneAddr (Machine.little u) n va) n u w ∧ SameCellsBut va u w := hw
    rw [h.little] at hw
    unfold SameMemoryBut SameCellsBut at hw
    rw [h.mem, h.cache] at hw
    exact hw
  | _ => exact ⟨hw.1.trans h.mem, hw.2.trans h.cache⟩

end

theorem Placid.still {s : State} (h : Placid s) : Still (Settled s) where
  free _ _ hu := hu
  textMaps _ _ hu := hu
  pfbQuads _ _ hu := hu
  ahead _ _ hu := hu
  physical _ hu := (h.settled hu).physical
  usable _ hu := (h.settled hu).window
  turns _ hu := (h.settled hu).noTurns

/-! Where a store goes -/

/-- A store that will land at a virtual address. -/
def Target.At (t : Target) (va : Word) : Prop := t = .cell va ∨ t = .phys va

def Grant.At (g : Grant) (va : Word) : Prop := g = .cell va ∨ ∃ k, g = .phys va k

/-- A destination that is a place. -/
def Dest.At (d : Dest) (p : Place) : Prop :=
  match p with
  | .register r => d = .register r
  | .constant _ => False
  | .memory _ va n _ => ∃ acc t, d = .memory acc t n ∧ t.At va

def Ready.At (d : Ready) (p : Place) : Prop :=
  match p with
  | .register r => d = .register r
  | .constant _ => False
  | .memory _ va n _ => ∃ g, d = .memory g n ∧ g.At va

theorem physical_loose : Loose fun u => u.vpEff = false := loose_visible fun v => v.vpEff = false

theorem prepWrite_at {u : State} (h : u.vpEff = false) (acc : Access) (va : Word) (n : Nat) :
    (prepWrite acc va n u).Done fun t _ => t.At va := by
  refine (checkAccess_leaves (P := fun u => u.vpEff = false) h va n).done.bind fun _ u h => ?_
  have hu := physical_loose.useCache acc va h
  dsimp only
  split
  · exact .inl rfl
  · refine (((physical_loose.readAhead _ hu).done.bind fun _ w hw => ?_ :
      Res.Done (fun pa _ => pa = va) _)).bind fun pa w hw => .inr (congrArg _ hw)
    rw [translateIn_physical _ _ _ _ _ hw]
    rfl

theorem claim_at {t : Target} {va : Word} (h : t.At va) (acc : Access) (n : Nat) (u : State) :
    (claim acc t n u).Done fun g _ => g.At va := by
  rcases h with rfl | rfl
  · exact .inl rfl
  · refine Res.Done.bind (P := fun _ _ => True) (by cases readAhead _ u <;> trivial) fun _ u _ => ?_
    exact Res.Done.bind (P := fun _ _ => True) (by cases takenWords acc va n u <;> trivial) fun k _ _ => .inr ⟨k, rfl⟩

theorem prepPlace_at {u : State} (h : u.vpEff = false) (l : Bool) (p : Place) :
    (prepPlace l p u).Done fun d _ => d.At p := by
  cases p with
  | register r => exact rfl
  | constant v => trivial
  | memory acc va n sg => exact (prepWrite_at h _ va n).bind fun t _ ht => ⟨_, t, rfl, ht⟩

theorem claimDest_at {d : Dest} {p : Place} (h : d.At p) (u : State) : (claimDest d u).Done fun e _ => e.At p := by
  cases p with
  | register r =>
    cases h
    exact rfl
  | constant v => exact h.elim
  | memory acc va n sg =>
    obtain ⟨acc, t, rfl, ht⟩ := h
    exact (claim_at ht acc 1 u).bind fun g _ hg => ⟨g, rfl, hg⟩

/-! What a store leaves -/

theorem SameMemoryBut.refl (a : Word) (n : Nat) (s : State) : SameMemoryBut a n s s := fun _ _ => rfl

theorem SameCellsBut.refl (va : Word) (s : State) : SameCellsBut va s s := fun _ _ => rfl

/-- A store in memory changes its own bytes. -/
theorem physStore_others (a : Word) (n : Nat) (v : Word) (s : State) : SameMemoryBut a n s (physStore a n v s) := by
  intro k hk
  rw [physStore_mem]
  exact Memory.read_writeBE_other _ _ _ _ _ fun j hj e => hk ⟨j, hj, e.symm⟩

theorem physStore_cache (a : Word) (n : Nat) (v : Word) (s : State) : (physStore a n v s).cache = s.cache := rfl

/-- A store in the stack cache changes its own cell. -/
theorem writeCell_others (va v : Word) (s : State) : SameCellsBut va s (writeCell va v s) := fun j hj =>
  Vector.getElem_set_ne (cellIndex va).isLt j.isLt fun e => hj (Fin.ext e.symm)

theorem commit_others {g : Grant} {va : Word} (h : g.At va) (n : Nat) (v : Word) (u : State) :
    SameMemoryBut (laneAddr (little u) n va) n u (commit g n v u) ∧ SameCellsBut va u (commit g n v u) := by
  rcases h with rfl | ⟨k, rfl⟩
  · exact ⟨.refl _ _ _, writeCell_others _ _ _⟩
  · unfold commit
    dsimp only
    split
    · exact ⟨.refl _ _ _, .refl _ _⟩
    · exact ⟨physStore_others _ _ _ _, fun _ _ => rfl⟩

/-- Drawing free values keeps what does not depend on the free supply. -/
theorem mixedPsw_leaves {P : State → Prop} (hf : ∀ s v, P s → P (s.setFree v)) (w : List Recent) (made v : Word)
    {u : State} (h : P u) : P (mixedPsw w made v u).2 := by
  induction w generalizing made v u with
  | nil => exact h
  | cons r rest ih =>
    have hd : P (drawMix r.flags v made u).2 := by
      unfold drawMix
      split
      · exact h
      · exact hf _ _ h
    exact ih _ _ hd

theorem mixedShad_leaves {P : State → Prop} (hf : ∀ s v, P s → P (s.setFree v)) (w : List Recent) (v : Word)
    {u : State} (h : P u) : P (mixedShad w v u).2 := by
  induction w generalizing v u with
  | nil => exact h
  | cons r rest ih =>
    unfold mixedShad
    split
    · exact ih _ h
    · exact ih _ (hf _ _ h)

/-- Memory, the stack cache, the addressing mode and the bus inputs are the same. -/
def SameAccess (u w : State) : Prop := w.mem = u.mem ∧ w.cache = u.cache ∧ w.vpEff = u.vpEff ∧ w.turns = u.turns

/-- A store in a register changes neither memory nor the stack cache, and comes with no bus transaction. -/
theorem writeRegister_same (r : Reg) (v : Word) (u : State) :
    SameAccess u (writeRegister r v u) := by
  have hu : SameAccess u u := ⟨rfl, rfl, rfl, rfl⟩
  have hif : ∀ (c : Bool) (a b : State), SameAccess u a → SameAccess u b → SameAccess u (if c then a else b) := by
    intro c a b ha hb
    cases c
    · exact hb
    · exact ha
  cases r with
  | isp => exact hif _ _ _ hu hu
  | sp => exact hif _ _ _ hu hu
  | psw => exact mixedPsw_leaves (P := SameAccess u) (fun _ _ h => h) u.recent u.psw (v &&& pswMask) hu
  | shad => exact mixedShad_leaves (P := SameAccess u) (fun _ _ h => h) u.recent v hu
  | _ => exact hu

theorem storeDest_frame {d : Ready} {p : Place} (h : d.At p) (v : Word) (u : State) : p.Frame u (storeDest d v u) := by
  cases p with
  | register r =>
    cases h
    obtain ⟨hm, hc, -, -⟩ := writeRegister_same r v u
    exact ⟨hm, hc⟩
  | constant v => exact h.elim
  | memory acc va n sg =>
    obtain ⟨g, rfl, hg⟩ := h
    exact commit_others hg n v u

/-- What does not depend on what an access may change. -/
theorem visible_rest {u w : State} (h : w.visible = u.visible) :
    usable w = usable u ∧ csp w = csp u ∧ little w = little u ∧ w.vpEff = u.vpEff := by
  simp only [State.visible, Visible.mk.injEq] at h
  obtain ⟨-, hc, hp, hisp, hmsp, hsp, -, -, -, -, -, -, hv, -⟩ := h
  rw [usable, usable, windowOk, windowOk, csp, csp, little, little, hc, hp, hisp, hmsp, hsp]
  exact ⟨rfl, rfl, rfl, hv⟩

theorem visible_loose (u : State) : Loose fun w => w.visible = u.visible := loose_visible (· = u.visible)

theorem commit_turns (g : Grant) (n : Nat) (v : Word) (u : State) : (commit g n v u).turns = u.turns := by
  cases g with
  | cell va => rfl
  | phys pa k =>
    unfold commit
    dsimp only
    split
    · rfl
    · rfl

theorem commit_placid {u : State} (h : Placid u) (g : Grant) (n : Nat) (v : Word) :
    Placid (commit g n v u) ∧ csp (commit g n v u) = csp u := by
  obtain ⟨hw, hc, -, hv⟩ := visible_rest ((visible_loose u).commit g n v rfl)
  exact ⟨⟨hv.trans h.physical, hw.trans h.window, (commit_turns g n v u).trans h.noTurns⟩, hc⟩

/-! The steps of a store -/

theorem raiseIf_bind_done {α : Type} {Q : α → State → Prop} {u : State} (c : Bool) (t : Trap)
    {g : Unit → State → Res α} (hg : (g () u).Done Q) : ((raiseIf c t u).bind g).Done Q := by
  cases c
  · exact hg
  · trivial

section
variable {s u : State} {p : Place} {α : Type} {Q : α → State → Prop} (hs : Placid s) (h : Settled s u)
include hs h

theorem settled_readPlace (who : Reader) (p : Place) {g : Word → State → Res α}
    (hg : ∀ v w, Settled s w → (g v w).Done Q) : ((readPlace who p u).bind g).Done Q :=
  (hs.still.readPlace who p h).done.bind hg

theorem settled_prepPlace (l : Bool) (p : Place) {g : Dest → State → Res α}
    (hg : ∀ d w, d.At p → Settled s w → (g d w).Done Q) : ((prepPlace l p u).bind g).Done Q :=
  ((prepPlace_at (hs.settled h).physical l p).and (hs.still.prepPlace l p h).done).bind fun d w hw => hg d w hw.1 hw.2

theorem settled_claimDest {d : Dest} (hd : d.At p) {g : Ready → State → Res α}
    (hg : ∀ e w, e.At p → Settled s w → (g e w).Done Q) : ((claimDest d u).bind g).Done Q :=
  ((claimDest_at hd u).and (hs.still.claimDest d h).done).bind fun e w hw => hg e w hw.1 hw.2

end

/-- The end of an instruction changes neither memory nor the stack cache. -/
theorem frame_finish {p : Place} {s w : State} (h : p.Frame s w) (t : Word) (r : Recent) (c : Calc) :
    (finish t r c w).Done fun _ t => p.Frame s t := by
  cases p <;> exact h

theorem frame_retire {p : Place} {s w : State} (h : p.Frame s w) (t : Word) (r : Recent) :
    (retire t r w).Done fun _ t => p.Frame s t := by
  cases p <;> exact h

theorem stored_frame {s u : State} (h : Settled s u) {d : Ready} {p : Place} (hd : d.At p) (v : Word) :
    p.Frame s (storeDest d v u) := h.frame (storeDest_frame hd v u)

/-! Instructions that store in their destination -/

section
variable {s s1 : State} {px : Bool} {f : Form} {a b : Place} (hs : Placid s)
include hs

theorem openForm_settled {use : DstUse} (e : openForm px use f s = .ok (a, b) s1) : Settled s s1 := by
  have h := hs.still.openForm px use f (Settled.refl s)
  rw [e] at h
  exact h

theorem runMov_frame (e : openForm px .writes f s = .ok (a, b) s1) : (runMov px f s).Done fun _ t => b.Frame s t := by
  unfold runMov
  rw [e]
  refine settled_readPlace hs (openForm_settled hs e) _ _ fun v w hw => settled_prepPlace hs hw _ _ fun d w hd hw => ?_
  refine raiseIf_bind_done _ _ (settled_claimDest hs hw hd fun d w hd hw => ?_)
  exact frame_retire (stored_frame hw hd _) _ _

theorem runBinary_frame (op : BinOp) (e : openForm px .updates f s = .ok (a, b) s1) :
    (runBinary op false px f s).Done fun _ t => b.Frame s t := by
  unfold runBinary
  simp only [Bool.false_eq_true, if_false]
  rw [e]
  refine settled_readPlace hs (openForm_settled hs e) _ _ fun x w hw => settled_readPlace hs hw _ _ fun y w hw => ?_
  refine settled_prepPlace hs hw _ _ fun d w hd hw => raiseIf_bind_done _ _ (raiseIf_bind_done _ _ ?_)
  exact settled_claimDest hs hw hd fun d w hd hw => frame_finish (stored_frame hw hd _) _ _ _

theorem runTagged_frame (op : TagOp) (e : openForm px .updates f s = .ok (a, b) s1) :
    (runTagged op px f s).Done fun _ t => b.Frame s t := by
  unfold runTagged
  rw [e]
  refine settled_readPlace hs (openForm_settled hs e) _ _ fun x w hw => settled_readPlace hs hw _ _ fun y w hw => ?_
  dsimp only
  split
  · have hb : b.Frame s w := by
      cases b with
      | memory acc va n sg => exact hw.frame (p := .memory acc va n sg) ⟨.refl _ _ _, .refl _ _⟩
      | _ => exact hw.same
    exact raiseIf_bind_done _ _ (frame_finish hb _ _ _)
  · refine settled_prepPlace hs hw _ _ fun d w hd hw => raiseIf_bind_done _ _ (settled_claimDest hs hw hd ?_)
    exact fun d w hd hw => frame_finish (stored_frame hw hd _) _ _ _

end

/-- Where an instruction ends with no event, what its completed meaning leaves holds. -/
theorem exec_done {i : Instr} {px : Bool} {v : View} {s t : State} {P : State → Prop} (hp : parse i = some (px, v))
    (ht : exec i s = .next t) (he : t.ended ≠ .event) (h : (v.run px s).Done fun _ w => P w) : P t := by
  rw [exec_of_parse s hp] at ht
  exact settle_done h ht he

/-- Settles O37: only the store reaches memory or the stack cache, and it goes to the place the operands named. -/
theorem destinationMemoryFrame : Obligations.DestinationMemoryFrame := by
  intro i op px f s s1 t a b hp hv hw ht hop e hx hend
  have hs : Placid s := ⟨hv, hw, ht⟩
  refine exec_done hp hx hend ?_
  rcases hop with rfl | ⟨o, rfl⟩ | ⟨o, rfl⟩
  · exact runMov_frame hs e
  · exact runBinary_frame hs o e
  · exact runTagged_frame hs o e

end Sys2Proof.Machine
end

section
/-! PROOF. What instructions with other stores than at their destination leave of memory and the stack cache, and those
without a store. With a window that is no longer usable memory stays too: only the cells go unknown. -/

namespace Sys2Proof.Machine

/-- A property that accesses cannot end before their writes with physical addressing and no bus input to come, whatever
the stack cache's window. -/
structure Flat (P : State → Prop) : Prop where
  free     : ∀ s v, P s → P (s.setFree v)
  textMaps : ∀ s v, P s → P (s.setTextMaps v)
  pfbQuads : ∀ s v, P s → P (s.setPfbQuads v)
  ahead    : ∀ s v, P s → P (s.setAhead v)
  cache    : ∀ s v, P s → P (s.setCache v)
  physical : ∀ s, P s → s.vpEff = false
  turns    : ∀ s, P s → s.turns = []

namespace Flat

variable {P : State → Prop} (L : Flat P) {s : State}
include L

theorem busTurn (l : Bool) (pa : Word) (h : P s) : (busTurn l pa s).2 = s := by
  unfold Machine.busTurn
  rw [L.turns s h]

theorem physRead (l : Bool) (t : Trap) (pa : Word) (h : P s) : (physRead l t pa s).Leaves P := by
  have hb := L.busTurn l pa h
  unfold Machine.physRead
  dsimp only
  rw [hb]
  split
  · exact h
  · exact h
  · trivial
  · exact h

theorem textReads : TextReads P where
  free := L.free
  textMaps := L.textMaps
  pfbQuads := L.pfbQuads
  ahead := L.ahead
  resolve va s h := by
    unfold Machine.resolve
    rw [L.physical s h]
    exact h
  readLine pa _ h := readLine_leaves (fun l t a _ h => L.physRead l t a h) pa h

theorem dataAddress (l : Bool) (k : Kind) (u : Bool) (va : Word) (h : P s) : (dataAddress l k u va s).Leaves P := by
  refine (L.textReads.readAhead l h).bind fun _ w hw => ?_
  rw [translateIn_physical _ _ _ _ _ (L.physical w hw)]
  exact hw

theorem useCache (acc : Access) (va : Word) (h : P s) : P (useCache acc va s).2 := by
  unfold Machine.useCache
  split
  · exact L.free _ _ (L.free _ _ (L.cache _ _ h))
  · split
    · split
      · exact L.free _ _ h
      · exact h
    · exact h

theorem memRead (acc : Access) (va : Word) (n : Nat) (h : P s) : (memRead acc va n s).Leaves P := by
  unfold Machine.memRead
  refine (checkAccess_leaves h _ _).bind fun _ s h => ?_
  have hu := L.useCache acc va h
  dsimp only
  split
  · exact hu
  · exact (L.dataAddress _ _ _ _ hu).bind fun pa s h => (L.textReads.readAhead _ h).bind fun _ s h =>
      (L.physRead _ _ _ h).bind fun w s h => h

theorem sequenceRead (va : Word) (h : P s) : (sequenceRead va s).Leaves P := orReset_leaves (L.memRead _ _ _ h)

theorem prepWrite (acc : Access) (va : Word) (n : Nat) (h : P s) : (prepWrite acc va n s).Leaves P := by
  unfold Machine.prepWrite
  refine (checkAccess_leaves h _ _).bind fun _ s h => ?_
  have hu := L.useCache acc va h
  dsimp only
  split
  · exact hu
  · exact (L.dataAddress _ _ _ _ hu).bind fun pa s h => h

theorem prepPlace (il : Bool) (p : Place) (h : P s) : (prepPlace il p s).Leaves P := by
  cases p with
  | constant v => exact h
  | register r => exact h
  | memory acc va n sg => exact (L.prepWrite _ _ _ h).bind fun _ _ h => h

theorem takenWords (n : Nat) (acc : Access) (pa : Word) (h : P s) : (takenWords acc pa n s).Leaves P := by
  induction n generalizing acc pa with
  | zero => exact h
  | succ k ih =>
    have hb := L.busTurn acc.locked pa h
    unfold Machine.takenWords
    dsimp only
    rw [hb]
    split
    · exact (ih _ _).bind fun _ _ h => h
    · exact .ite h h
    · trivial
    · exact h

theorem claimDest (d : Dest) (h : P s) : (claimDest d s).Leaves P := by
  cases d with
  | register r => exact h
  | memory acc t n =>
    refine Res.Leaves.bind (r := claim acc t 1 s) ?_ fun _ _ h => h
    cases t with
    | cell va => exact h
    | phys pa => exact (L.textReads.readAhead _ h).bind fun _ _ h => (L.takenWords _ _ _ h).bind fun _ _ h => h

theorem physWords (n : Nat) (l : Bool) (pa : Word) (h : P s) : (physWords l pa n s).Leaves P := by
  induction n generalizing l pa s with
  | zero => exact h
  | succ k ih => exact (L.physRead _ _ _ h).bind fun _ _ h => (ih _ _ h).bind fun _ _ h => h

theorem memoryQuad (u : Bool) (a : Word) (h : P s) : (memoryQuad u a s).Leaves P :=
  (L.dataAddress _ _ _ _ h).bind fun _ _ h => (L.textReads.readAhead _ h).bind fun _ _ h => L.physWords _ _ _ h

theorem checkStore (a : Word) (h : P s) : (checkStore a s).Leaves P := by
  have ht := L.dataAddress false .write (pswX s.psw) a h
  unfold Machine.checkStore
  split <;> rename_i e <;> (rw [e] at ht; exact ht)

theorem loadQuad (a : Word) (ws : List Word) (h : P s) : P (loadQuad a ws s) := by
  unfold Machine.loadQuad
  induction ws generalizing a s with
  | nil => exact h
  | cons w rest ih => exact ih _ (L.cache _ _ h)

end Flat

/-! The accumulator -/

/-- Memory, with physical addressing and no bus input to come. -/
def MemoryKept (s u : State) : Prop := u.mem = s.mem ∧ u.vpEff = false ∧ u.turns = []

theorem memoryKept_flat (s : State) : Flat (MemoryKept s) where
  free _ _ h := h
  textMaps _ _ h := h
  pfbQuads _ _ h := h
  ahead _ _ h := h
  cache _ _ h := h
  physical _ h := h.2.1
  turns _ h := h.2.2

/-- The store in the accumulator that ends an instruction. -/
def accStore (target : Word) (r : Recent) (v : Word) (s : State) : Res Unit :=
  (prepPlace false (accPlace s) s).bind fun d s => (claimDest d s).bind fun d s => retire target r (storeDest d v s)

/-- Nothing but the accumulator is stored to. -/
theorem accStore_memory {s : State} (hv : s.vpEff = false) (ht : s.turns = []) (target : Word) (r : Recent) (v : Word) :
    (accStore target r v s).Done fun _ t => SameMemoryBut (csp s + 4#32) 4 s t ∧ csp t = csp s ∧ usable t = usable s := by
  have L := memoryKept_flat s
  have V := visible_loose s
  refine ((prepPlace_at hv false (accPlace s)).and ((L.prepPlace false _ ⟨rfl, hv, ht⟩).done.and
    (V.prepPlace false (accPlace s) rfl).done)).bind fun d u hu => ?_
  obtain ⟨hd, hm, hvis⟩ := hu
  refine ((claimDest_at hd u).and ((L.claimDest d hm).done.and (V.claimDest d hvis).done)).bind fun e w hw => ?_
  obtain ⟨⟨g, rfl, hg⟩, hm, hvis⟩ := hw
  obtain ⟨huse, hcsp, -⟩ := visible_rest (V.commit g 4 v hvis)
  have hmem := (commit_others hg 4 v w).1
  rw [laneAddr_word] at hmem
  refine ⟨fun k hk => (hmem k hk).trans ?_, hcsp, huse⟩
  rw [hm.1]

/-- The accumulator is where it was. -/
theorem Settled.accPlace {s u t : State} (h : Settled s u) (hf : (accPlace u).Frame s t) : (accPlace s).Frame s t := by
  unfold Machine.accPlace at hf
  rw [h.csp] at hf
  exact hf

theorem accStore_frame {s u : State} (hs : Placid s) (h : Settled s u) (target : Word) (r : Recent) (v : Word) :
    (accStore target r v u).Done fun _ t => (accPlace s).Frame s t := by
  refine settled_prepPlace hs h false (accPlace u) fun d w hd hw => settled_claimDest hs hw hd fun d w hd hw => ?_
  exact frame_retire (h.accPlace (stored_frame hw hd v)) target r

/-- The accumulator is a whole word, whatever the byte order. -/
theorem accPlace_frame {s t : State} (h : (accPlace s).Frame s t) :
    SameMemoryBut (csp s + 4#32) 4 s t ∧ SameCellsBut (csp s + 4#32) s t := by
  have h : SameMemoryBut (laneAddr (little s) 4 (csp s + 4#32)) 4 s t ∧ SameCellsBut (csp s + 4#32) s t := h
  rwa [laneAddr_word] at h

section
variable {s : State} (hs : Placid s)
include hs

theorem runBinary_accumulator (op : BinOp) (px : Bool) (f : Form) :
    (runBinary op true px f s).Done fun _ t => (accPlace s).Frame s t := by
  refine (hs.still.openForm px _ f (.refl s)).done.bind fun p w hw => settled_readPlace hs hw _ _ fun x w hw =>
    settled_readPlace hs hw _ _ fun y w hw => settled_prepPlace hs hw _ _ fun d w' hd hw' => ?_
  refine raiseIf_bind_done _ _ (raiseIf_bind_done _ _ (settled_claimDest hs hw' hd fun d w' hd hw' => ?_))
  exact frame_finish (hw.accPlace (stored_frame hw' hd _)) _ _ _

theorem runLdraa_accumulator (px : Bool) (m : BitVec 4) (o : Word) (n : Nat) :
    (runLdraa px m o n s).Done fun _ t => (accPlace s).Frame s t := by
  refine (raiseIf_leaves (Settled.refl s) _ _).done.bind fun _ w hw => (hs.still.flowTarget m o hw).done.bind fun v w hw => ?_
  exact accStore_frame hs hw _ _ _

end

/-! Interlocked instructions -/

/-- What O39 says of the state after an interlocked instruction. -/
def LockFrame (b : Place) (s t : State) : Prop :=
  match b with
  | .memory _ va n _ =>
    (∀ k, ¬ inBytes (laneAddr (little s) n va) n k → ¬ inBytes (csp s + 4#32) 4 k →
      Memory.read t.mem k = Memory.read s.mem k) ∧
    (∀ j : Fin 64, j ≠ cellIndex va → j ≠ cellIndex (csp s + 4#32) → t.cache[j] = s.cache[j])
  | _ => SameMemoryBut (csp t + 4#32) 4 s t ∧ (usable t = true → SameCellsBut (csp t + 4#32) s t)

/-- The store in the accumulator after one in the destination. -/
theorem lock_stores {s u : State} (hs : Placid s) (h : Settled s u) {b : Place} {d : Ready} (hd : d.At b) (v : Word)
    (target : Word) (r : Recent) (x : Word) : (accStore target r x (storeDest d v u)).Done fun _ t => LockFrame b s t := by
  have hu := hs.settled h
  have hf := stored_frame h hd v
  cases b with
  | constant w => exact hd.elim
  | memory acc va n sg =>
    obtain ⟨g, rfl, hg⟩ := hd
    obtain ⟨hp, hc⟩ := commit_placid hu g n v
    refine (accStore_frame hp (.refl _) target r x).imp fun _ t ht => ?_
    obtain ⟨hmem, hcells⟩ := accPlace_frame ht
    have hcsp : csp (commit g n v u) = csp s := hc.trans h.csp
    have hstore : commit g n v u = storeDest (.memory g n) v u := rfl
    rw [hcsp] at hmem hcells
    exact ⟨fun k hk hk' => (hmem k hk').trans (hf.1 k hk), fun j hj hj' => (hcells j hj').trans (hf.2 j hj)⟩
  | register reg =>
    cases hd
    obtain ⟨hm, hc, hv, ht⟩ := writeRegister_same reg v u
    generalize he : storeDest (.register reg) v u = w at hf ⊢
    have hw : w = writeRegister reg v u := he.symm
    rw [← hw] at hm hc hv ht
    have hcell : (accStore target r x w).Done fun _ t => usable w = true → SameCellsBut (csp w + 4#32) w t := by
      by_cases huse : usable w = true
      · have hp : Placid w := ⟨hv.trans hu.physical, huse, ht.trans hu.noTurns⟩
        exact (accStore_frame hp (.refl w) target r x).imp fun _ t ht _ => (accPlace_frame ht).2
      · exact (accStore_memory (hv.trans hu.physical) (ht.trans hu.noTurns) target r x).imp fun _ _ _ h => absurd h huse
    refine ((accStore_memory (hv.trans hu.physical) (ht.trans hu.noTurns) target r x).and hcell).imp fun _ t ht => ?_
    obtain ⟨⟨hmem, hcsp, huse⟩, hcells⟩ := ht
    refine ⟨?_, fun ht j hj => ?_⟩
    · rw [hcsp]
      exact fun k hk => (hmem k hk).trans (by rw [hf.1])
    · rw [hcsp] at hj
      exact (hcells (huse ▸ ht) j hj).trans (by rw [hf.2])

/-- Settles O39: the destination's store and the accumulator's are the only two; a store in a register may move the
accumulator. -/
theorem interlockedMemoryFrame : Obligations.InterlockedMemoryFrame := by
  intro i op px f s s1 t a b hp hv hw ht e hx hend
  have hs : Placid s := ⟨hv, hw, ht⟩
  suffices h : (runLock op px f s).Done fun _ t => LockFrame b s t from exec_done hp hx hend h
  unfold runLock
  rw [e]
  refine settled_readPlace hs (openForm_settled hs e) _ _ fun x w hw => settled_readPlace hs hw _ _ fun y w hw => ?_
  refine settled_prepPlace hs hw _ _ fun d w hd hw => raiseIf_bind_done _ _ (settled_claimDest hs hw hd fun d w hd hw => ?_)
  exact lock_stores hs hw hd _ _ _ _

/-! Instructions without a store -/

/-- Memory and the stack cache stay. -/
def StoresKept (s u : State) : Prop := u.mem = s.mem ∧ u.cache = s.cache

section
variable {s : State} (hs : Placid s)
include hs

theorem runCompare_stores (op : CmpOp) (px : Bool) (f : Form) : (runCompare op px f s).Done fun _ => StoresKept s :=
  (hs.still.openForm px _ f (.refl s)).done.bind fun _ _ hw => settled_readPlace hs hw _ _ fun _ _ hw =>
    settled_readPlace hs hw _ _ fun _ _ hw => hw.same

theorem runJmp_stores (m : BitVec 4) (o : Word) : (runJmp m o s).Done fun _ => StoresKept s :=
  raiseIf_bind_done _ _ ((hs.still.flowTarget m o (.refl s)).done.bind fun _ _ hw => hw.same)

theorem runJmpIf_stores (sense px : Bool) (m : BitVec 4) (o : Word) (n : Nat) :
    (runJmpIf sense px m o n s).Done fun _ => StoresKept s :=
  raiseIf_bind_done _ _ ((hs.still.flowTarget m o (.refl s)).done.bind fun _ _ hw => hw.same)

omit hs in
theorem popFrame_stores (off : Word) (u : State) : StoresKept u (popFrame off u) := by
  unfold popFrame setCsp
  dsimp only
  split <;> split <;> exact ⟨rfl, rfl⟩

theorem runReturn_stores (m : BitVec 4) (o : Word) : (runReturn m o s).Done fun _ => StoresKept s := by
  refine raiseIf_bind_done _ _ ((hs.still.memRead _ _ _ (.refl s)).done.bind fun _ u hu => ?_)
  obtain ⟨hm, hc⟩ := popFrame_stores o u
  exact ⟨hm.trans hu.mem, hc.trans hu.cache⟩

omit hs in
theorem runPopn_stores (px : Bool) (m : BitVec 4) (o : Word) (n : Nat) :
    (runPopn px m o n s).Done fun _ => StoresKept s := raiseIf_bind_done _ _ (popFrame_stores o s)

theorem flushOperand_settled (m : BitVec 4) (o : Word) : (flushOperand m o s).Done fun _ => Settled s :=
  raiseIf_bind_done _ _ (hs.still.effectiveAddress _ (.refl s)).done

theorem runFlushpte_stores (px : Bool) (m : BitVec 4) (o : Word) (n : Nat) :
    (runFlushpte px m o n s).Done fun _ => StoresKept s :=
  raiseIf_bind_done _ _ ((flushOperand_settled hs m o).bind fun _ _ hu => hu.same)

theorem runFlushpbe_stores (px : Bool) (m : BitVec 4) (o : Word) (n : Nat) :
    (runFlushpbe px m o n s).Done fun _ => StoresKept s := by
  refine raiseIf_bind_done _ _ ((flushOperand_settled hs m o).bind fun a u hu => ?_)
  rw [flushTarget_physical _ _ (hs.settled hu).physical]
  exact hu.same

theorem runKret_stores : (runKret s).Done fun _ => StoresKept s :=
  raiseIf_bind_done _ _ ((hs.still.sequenceRead _ (.refl s)).done.bind fun _ _ hu =>
    (hs.still.sequenceRead _ hu).done.bind fun _ _ hu => hu.same)

theorem NilOp.run_stores (op : NilOp) (hc : op ≠ .cret) (hu : op ≠ .unimplemented) (ht : op ≠ .trapped) :
    (op.run s).Done fun _ => StoresKept s := by
  cases op with
  | cret => exact absurd rfl hc
  | unimplemented => exact absurd rfl hu
  | trapped => exact absurd rfl ht
  | kret => exact runKret_stores hs
  | _ => exact ⟨rfl, rfl⟩

/-! Instructions that fill the stack cache -/

theorem Placid.kept {u : State} (h : Settled s u) : MemoryKept s u :=
  ⟨h.mem, (hs.settled h).physical, (hs.settled h).noTurns⟩

omit hs in
theorem catchQuads_memory (t : Word) (n : Nat) {u : State} (h : MemoryKept s u) :
    (catchQuads t n u).Leaves (MemoryKept s) := by
  have L := memoryKept_flat s
  induction n generalizing u with
  | zero => exact h
  | succ k ih =>
    unfold catchQuads
    exact .ite ((L.checkStore _ h).bind fun _ _ h => (L.memoryQuad _ _ h).bind fun ws w h =>
      ih (L.loadQuad w.msp ws h)) h

theorem runCatch_memory (px : Bool) (m : BitVec 4) (o : Word) (n : Nat) :
    (runCatch px m o n s).Done fun _ t => t.mem = s.mem := by
  have hframe : (checkFrame s).Leaves (Settled s) := .ite trivial (.refl s)
  refine raiseIf_bind_done _ _ ?_
  split
  · rfl
  · exact hframe.done.bind fun _ _ h => (hs.still.frameTarget m o h).done.bind fun _ _ h =>
      (catchQuads_memory _ _ (hs.kept h)).done.bind fun _ _ h => h.1

omit hs in
theorem fillQuads_memory (user : Bool) (a : Word) (n : Nat) {u : State} (h : MemoryKept s u) :
    (fillQuads user a n u).Leaves (MemoryKept s) := by
  have L := memoryKept_flat s
  induction n generalizing a u with
  | zero => exact h
  | succ k ih => exact (L.memoryQuad _ _ h).bind fun ws w h => ih _ (L.loadQuad a ws h)

omit hs in
/-- The translation of the fill is that of the restored PSW. -/
theorem cretFill_memory (sp msp p : Word) (hp : pswVP p = false) {u : State} (h : MemoryKept s u) :
    (cretFill sp msp p u).Done fun _ => MemoryKept s := by
  obtain ⟨hm, hv, ht⟩ := h
  unfold cretFill
  split
  · have hf := fillQuads_memory (s := s) false sp ((msp.toNat - sp.toNat) / 16) (u := u.setVpEff (pswVP p)) ⟨hm, hp, ht⟩
    cases e : fillQuads false sp ((msp.toNat - sp.toNat) / 16) (u.setVpEff (pswVP p)) with
    | ok a w =>
      rw [e] at hf
      exact ⟨hf.1, hv, hf.2.2⟩
    | _ => trivial
  · exact (memoryKept_flat s).free _ _ ((memoryKept_flat s).cache _ _ ⟨hm, hv, ht⟩)

omit hs in
theorem pswVP_mask (p : Word) : pswVP (p &&& pswMask) = pswVP p := by
  have hm : pswMask.getLsbD 16 = true := by decide
  rw [pswVP, pswVP, BitVec.getLsbD_and, hm, Bool.and_true]

theorem runCret_memory : (runCret s).Done fun _ t => pswVP t.psw = false → t.mem = s.mem := by
  refine raiseIf_bind_done _ _ ((hs.still.sequenceRead _ (.refl s)).done.bind fun w u h => ?_)
  have honTrap : ∀ {r : Res Word} {f : State → State}, r.Leaves (Settled s) → (r.onTrap f).Done fun _ => Settled s := by
    intro r f h
    cases r with
    | ok a w => exact h
    | _ => trivial
  refine (honTrap (hs.still.sequenceRead _ h)).bind fun m u h => (honTrap (hs.still.sequenceRead _ h)).bind fun p u h => ?_
  by_cases hp : pswVP p = false
  · refine (cretFill_memory _ _ p hp (hs.kept h)).bind fun _ u h => ?_
    exact ((memoryKept_flat s).sequenceRead _ (s := (u.setSp (quadAlign w)).setMsp (quadAlign m)) h).done.bind
      fun _ _ h _ => h.1
  · refine Res.Done.bind (P := fun _ _ => True) (by cases cretFill _ _ p u <;> trivial) fun _ u _ => ?_
    refine Res.Done.bind (P := fun _ _ => True) (by cases sequenceRead _ _ <;> trivial) fun _ u _ ht => ?_
    exact absurd ((pswVP_mask p).symm.trans ht) hp

end

/-- Settles O38: the only store of the first kind is the accumulator's, the second kind has none, and the third loads
the stack cache. -/
theorem otherMemoryFrame : Obligations.OtherMemoryFrame := by
  intro i px v s t hp hv hw ht hx hc
  have hs : Placid s := ⟨hv, hw, ht⟩
  have he : t.ended ≠ .event := by
    rw [hc]
    exact nofun
  refine ⟨?_, ?_, ?_⟩
  · rintro (⟨f, o, rfl⟩ | ⟨m, o, n, rfl⟩)
    · exact accPlace_frame (exec_done hp hx he (runBinary_accumulator hs o px f))
    · exact accPlace_frame (exec_done hp hx he (runLdraa_accumulator hs px m o n))
  · rintro (⟨f, o, rfl⟩ | ⟨m, o, n, rfl⟩ | ⟨b, m, o, n, rfl⟩ | ⟨m, o, n, rfl⟩ | ⟨m, o, n, rfl⟩ | ⟨m, o, n, rfl⟩ |
      ⟨m, o, n, rfl⟩ | ⟨op, rfl, hcret, hun, htr⟩)
    · exact exec_done hp hx he (runCompare_stores hs o px f)
    · exact exec_done hp hx he (runJmp_stores hs m o)
    · exact exec_done hp hx he (runJmpIf_stores hs b px m o n)
    · exact exec_done hp hx he (runReturn_stores hs m o)
    · exact exec_done hp hx he (runPopn_stores px m o n)
    · exact exec_done hp hx he (runFlushpte_stores hs px m o n)
    · exact exec_done hp hx he (runFlushpbe_stores hs px m o n)
    · exact exec_done hp hx he (op.run_stores hs hcret hun htr)
  · rintro (⟨m, o, n, rfl⟩ | ⟨rfl, hvp⟩)
    · exact exec_done hp hx he (runCatch_memory hs px m o n)
    · exact exec_done hp hx he (runCret_memory hs) hvp

end Sys2Proof.Machine
end

section
/-! PROOF. What MOVA, DQM and CALL leave of memory and the stack cache: a block transfer stores its words one after the
other, from its address up. -/

namespace Sys2Proof.Machine

theorem byteKey_add (a : Word) (i j : Nat) : byteKey (a + BitVec.ofNat 32 i) j = byteKey a (i + j) := by
  rw [byteKey, byteKey, BitVec.add_assoc, BitVec.ofNat_add]

/-- What is outside a block is outside its first word and outside the rest. -/
theorem not_inBytes_succ {a : Word} {n k : Nat} (h : ¬ inBytes a (4 * (n + 1)) k) :
    ¬ inBytes a 4 k ∧ ¬ inBytes (a + 4#32) (4 * n) k := by
  refine ⟨fun ⟨j, hj, e⟩ => h ⟨j, by omega, e⟩, fun ⟨j, hj, e⟩ => h ⟨4 + j, by omega, ?_⟩⟩
  rw [← byteKey_add]
  exact e

/-- A block's words go from its address up. -/
theorem commitWords_others (ws : List Word) {g : Grant} {va : Word} (h : g.At va) (u : State) :
    SameMemoryBut va (4 * ws.length) u (commitWords g ws u) ∧
      ∀ j : Fin 64, (∀ k, k < ws.length → j ≠ cellIndex (va + BitVec.ofNat 32 (4 * k))) →
        (commitWords g ws u).cache[j] = u.cache[j] := by
  induction ws generalizing g va u with
  | nil => exact ⟨.refl _ _ _, fun _ _ => rfl⟩
  | cons w rest ih =>
    have hnext : ∀ k, va + 4#32 + BitVec.ofNat 32 (4 * k) = va + BitVec.ofNat 32 (4 * (k + 1)) := fun k => by
      rw [BitVec.add_assoc]
      congr 1
      rw [Nat.mul_succ, BitVec.ofNat_add, BitVec.add_comm]
    rcases h with rfl | ⟨k, rfl⟩
    · obtain ⟨hm, hc⟩ := ih (.inl rfl : (Grant.cell (va + 4#32)).At (va + 4#32)) (writeCell va w u)
      refine ⟨fun k hk => hm k (not_inBytes_succ hk).2, fun j hj => (hc j fun k hk => ?_).trans (writeCell_others va w u j ?_)⟩
      · rw [hnext]
        exact hj (k + 1) (Nat.succ_lt_succ hk)
      · exact BitVec.add_zero va ▸ hj 0 (Nat.succ_pos _)
    · cases k with
      | zero => exact ⟨.refl _ _ _, fun _ _ => rfl⟩
      | succ k =>
        obtain ⟨hm, hc⟩ := ih (.inr ⟨k, rfl⟩ : (Grant.phys (va + 4#32) k).At (va + 4#32)) (physStore va 4 w u)
        refine ⟨fun k hk => (hm k (not_inBytes_succ hk).2).trans (physStore_others va 4 w u k (not_inBytes_succ hk).1),
          fun j hj => hc j fun k hk => ?_⟩
        rw [hnext]
        exact hj (k + 1) (Nat.succ_lt_succ hk)

/-! How many words a block has -/

theorem cellWords_length (n : Nat) (va : Word) (s : State) : (cellWords va n s).length = n := by
  induction n generalizing va with
  | zero => rfl
  | succ k ih => exact congrArg (· + 1) (ih _)

theorem physWords_length (n : Nat) (l : Bool) (pa : Word) (s : State) :
    (physWords l pa n s).Done fun ws _ => ws.length = n := by
  induction n generalizing l pa s with
  | zero => rfl
  | succ k ih =>
    refine Res.Done.bind (P := fun _ _ => True) (by cases physRead l .ioBusFault pa s <;> trivial) fun w u _ => ?_
    exact (ih _ _ u).bind fun _ _ h => congrArg (· + 1) h

theorem readWords_length (acc : Access) (va : Word) (n : Nat) (s : State) :
    (readWords acc va n s).Done fun ws _ => ws.length = n := by
  refine Res.Done.bind (P := fun _ _ => True) (by cases checkAccess va 4 s <;> trivial) fun _ u _ => ?_
  dsimp only
  split
  · exact cellWords_length n va _
  · refine Res.Done.bind (P := fun _ _ => True) (by cases dataAddress _ _ _ _ _ <;> trivial) fun pa u _ => ?_
    refine Res.Done.bind (P := fun _ _ => True) (by cases readAhead false u <;> trivial) fun _ u _ => ?_
    exact physWords_length n false pa u

/-! The instructions -/

section
variable {s : State} (hs : Placid s)
include hs

theorem runMova_frame {px : Bool} {f : Form} {ea : Word} {b : Place} {s1 s2 : State}
    (ha : effectiveAddress f.src s = .ok ea s1) (hb : locate px (modeSize px f.dst.mode) f.dst s1 = .ok b s2) :
    (runMova px f s).Done fun _ t => b.Frame s t := by
  have h1 := hs.still.effectiveAddress f.src (.refl s)
  rw [ha] at h1
  have h2 := hs.still.locate px (modeSize px f.dst.mode) f.dst h1
  rw [hb] at h2
  refine raiseIf_bind_done _ _ (raiseIf_bind_done _ _ ?_)
  rw [ha]
  show ((locate px _ f.dst s1).bind _).Done _
  rw [hb]
  exact settled_prepPlace hs h2 _ _ fun d w hd hw => settled_claimDest hs hw hd fun d w hd hw =>
    frame_retire (stored_frame hw hd _) _ _

theorem dqmSource_words (p : Place) (n : Nat) {u : State} (h : Settled s u) :
    (dqmSource p n u).Done fun ws w => ws.length = n ∧ Settled s w := by
  cases p with
  | register r => trivial
  | constant v => exact ⟨List.length_replicate, h⟩
  | memory acc va sz sg => exact (readWords_length acc va n u).and (hs.still.readWords acc va n h).done

theorem runDqm_frame {px : Bool} {f : Form} {n : Nat} {a : Place} {acc : Access} {va : Word} {sz : Nat} {sg : Bool}
    {s1 s2 : State} (hn : dqmWords px f.dst.mode = some n) (ha : locate px (4 * n) f.src s = .ok a s1)
    (hb : locate px (4 * n) f.dst s1 = .ok (.memory acc va sz sg) s2) :
    (runDqm px f s).Done fun _ t => SameMemoryBut va (4 * n) s t ∧
      ∀ j : Fin 64, (∀ k, k < n → j ≠ cellIndex (va + BitVec.ofNat 32 (4 * k))) → t.cache[j] = s.cache[j] := by
  have h1 := hs.still.locate px (4 * n) f.src (.refl s)
  rw [ha] at h1
  have h2 := hs.still.locate px (4 * n) f.dst h1
  rw [hb] at h2
  unfold runDqm
  rw [hn]
  refine raiseIf_bind_done _ _ (raiseIf_bind_done _ _ ?_)
  rw [ha]
  show ((locate px _ f.dst s1).bind _).Done _
  rw [hb]
  refine (dqmSource_words hs a n h2).bind fun ws u hu => ?_
  obtain ⟨rfl, hu⟩ := hu
  have htarget : (dqmTarget (.memory acc va sz sg) ws.length u).Done fun g w => g.At va ∧ Settled s w := by
    refine ((prepWrite_at (hs.settled hu).physical acc va 4).and (hs.still.prepWrite acc va 4 hu).done).bind fun t w hw => ?_
    exact (claim_at hw.1 acc _ w).and (hs.still.claim acc t _ hw.2).done
  refine htarget.bind fun g w hw => ?_
  obtain ⟨hg, hw⟩ := hw
  obtain ⟨hm, hc⟩ := commitWords_others ws hg w
  unfold SameMemoryBut at hm
  rw [hw.mem] at hm
  rw [hw.cache] at hc
  exact ⟨hm, hc⟩

theorem runCall_frame (px : Bool) (m : BitVec 4) (o : Word) (n : Nat) :
    (runCall px m o n s).Done fun _ t => SameMemoryBut (csp s) 4 s t ∧ SameCellsBut (csp s) s t := by
  refine raiseIf_bind_done _ _ (raiseIf_bind_done _ _ ?_)
  have hstore : (memWrite (stackAccess s) (csp s) 4 (nextPc px n s) s).Done fun _ u =>
      Placid u ∧ SameMemoryBut (csp s) 4 s u ∧ SameCellsBut (csp s) s u := by
    refine ((prepWrite_at hs.physical _ (csp s) 4).and (hs.still.prepWrite _ _ _ (.refl s)).done).bind fun t w hw => ?_
    refine ((claim_at hw.1 _ 1 w).and (hs.still.claim _ t 1 hw.2).done).bind fun g w hw => ?_
    obtain ⟨hg, hw⟩ := hw
    obtain ⟨hm, hc⟩ := commit_others hg 4 (nextPc px n s) w
    rw [laneAddr_word] at hm
    unfold SameMemoryBut at hm
    unfold SameCellsBut at hc
    rw [hw.mem] at hm
    rw [hw.cache] at hc
    exact ⟨(commit_placid (hs.settled hw) g 4 _).1, hm, hc⟩
  refine hstore.bind fun _ u hu => ?_
  obtain ⟨hp, hm, hc⟩ := hu
  refine (hp.still.flowTarget m o (.refl u)).done.bind fun t w hw => ?_
  unfold SameMemoryBut at hm
  unfold SameCellsBut at hc
  rw [← hw.mem] at hm
  rw [← hw.cache] at hc
  exact ⟨hm, hc⟩

end

/-- Settles O40: each of the three has one store, whose words lie where its operand says. -/
theorem blockMemoryFrame : Obligations.BlockMemoryFrame := by
  intro i px v s t hp hv hw ht hx he
  have hs : Placid s := ⟨hv, hw, ht⟩
  refine ⟨?_, ?_, ?_⟩
  · rintro f ea s1 b s2 rfl ha hb
    exact exec_done hp hx he (runMova_frame hs ha hb)
  · rintro f n a s1 acc va sz sg s2 rfl hn ha hb
    exact exec_done hp hx he (runDqm_frame hs hn ha hb)
  · rintro m o n rfl
    exact exec_done hp hx he (runCall_frame hs px m o n)

end Sys2Proof.Machine
end

section
/-! PROOF. The stack cache's transfers in the ordinary situation: a quad loaded, a quad flushed, and the loops over quads
of CATCH, CRET and ENTER (44_program_control.md R263, R264, R266). -/

namespace Sys2Proof.Machine

/-! Words of a block -/

/-- The words memory holds from an address on. -/
def memWords (m : Memory) (n : Nat) (a : Word) : List Word :=
  match n with
  | 0 => []
  | k + 1 => m.readBE (wordAlign a) 4 :: memWords m k (a + 4#32)

theorem memWords_length (m : Memory) (n : Nat) (a : Word) : (memWords m n a).length = n := by
  induction n generalizing a with
  | zero => rfl
  | succ k ih => exact congrArg (· + 1) (ih _)

theorem memWords_get (m : Memory) (n : Nat) (a : Word) (k : Nat) (hk : k < (memWords m n a).length) :
    (memWords m n a)[k] = m.readBE (wordAlign (a + BitVec.ofNat 32 (4 * k))) 4 := by
  induction n generalizing a k with
  | zero => exact absurd hk (Nat.not_lt_zero k)
  | succ n ih =>
    cases k with
    | zero => exact congrArg (fun x => m.readBE (wordAlign x) 4) (BitVec.add_zero a).symm
    | succ k => exact (ih (a + 4#32) k (Nat.lt_of_succ_lt_succ hk)).trans (by rw [block_next])

theorem cellWords_get (n : Nat) (a : Word) (s : State) (k : Nat) (hk : k < (cellWords a n s).length) :
    (cellWords a n s)[k] = readCell (a + BitVec.ofNat 32 (4 * k)) s := by
  induction n generalizing a k with
  | zero => exact absurd hk (Nat.not_lt_zero k)
  | succ n ih =>
    cases k with
    | zero => exact congrArg (fun x => readCell x s) (BitVec.add_zero a).symm
    | succ k => exact (ih (a + 4#32) k (Nat.lt_of_succ_lt_succ hk)).trans (by rw [block_next])

theorem physWords_ram (n : Nat) (l : Bool) (a : Word) (s : State) (hb : ramBus s = true) :
    physWords l a n s = .ok (memWords s.mem n a) s := by
  induction n generalizing l a with
  | zero => rfl
  | succ k ih =>
    rw [physWords, physRead_ram _ _ _ _ hb]
    simp only [Res.bind_ok, ih]
    rfl

theorem memoryQuad_ram (user : Bool) (a : Word) (s : State) (hv : s.vpEff = false) (hb : ramBus s = true) :
    memoryQuad user a s = .ok (memWords s.mem 4 a) s := by
  rw [memoryQuad, dataAddress_physical _ _ _ _ _ hv hb]
  simp only [Res.bind_ok, dataWords, readAhead_hidden _ _ (readsShow_ram s hv hb), physWords_ram 4 _ _ _ hb]

/-! Block stores -/

/-- A word's cell by its address. -/
theorem cellIndex_eq_iff (a b : Word) : cellIndex a = cellIndex b ↔ a.toNat / 4 % 64 = b.toNat / 4 % 64 := Fin.ext_iff

/-- The 64 words of a block have 64 cells. -/
theorem cellIndex_add_ne (a : Word) {k : Nat} (h : k < 63) : cellIndex (a + 4#32 + BitVec.ofNat 32 (4 * k)) ≠ cellIndex a := by
  rw [Ne, cellIndex_eq_iff, block_next, BitVec.toNat_add, BitVec.toNat_ofNat]
  have := a.isLt
  omega

theorem commitCells_get (ws : List Word) (a : Word) (s : State) (hlen : ws.length ≤ 64) (k : Nat) (hk : k < ws.length) :
    readCell (a + BitVec.ofNat 32 (4 * k)) (commitWords (.cell a) ws s) = ws[k] := by
  induction ws generalizing a s k with
  | nil => exact absurd hk (Nat.not_lt_zero k)
  | cons w rest ih =>
    have hlen : rest.length + 1 ≤ 64 := hlen
    cases k with
    | zero =>
      have hother := (commitWords_others rest (.inl rfl : (Grant.cell (a + 4#32)).At _) (writeCell a w s)).2 (cellIndex a)
        fun k hk => (cellIndex_add_ne a (by omega)).symm
      have h0 : a + BitVec.ofNat 32 (4 * 0) = a := BitVec.add_zero a
      rw [h0]
      exact hother.trans (Vector.getElem_set_self (cellIndex a).isLt)
    | succ k =>
      rw [← block_next]
      exact ih (a + 4#32) (writeCell a w s) (by omega) k (Nat.lt_of_succ_lt_succ hk)

theorem readBE_of_same {a b : Word} {n : Nat} {s t : State} (h : SameMemoryBut a n s t)
    (hd : ∀ k, k < 4 → ¬ inBytes a n (byteKey b k)) : Memory.readBE t.mem b 4 = Memory.readBE s.mem b 4 :=
  readBE_congr fun k hk => h _ (hd k hk)

theorem readBE_physStore (a w : Word) (s : State) : Memory.readBE (physStore a 4 w s).mem a 4 = w := by
  rw [physStore_mem]
  exact eq_of_bits fun j hj => readBE_writeBE_same s.mem a (Nat.le_refl 4) w hj

theorem commitPhys_get (ws : List Word) (a : Word) (s : State) (hlen : ws.length ≤ 64) (k : Nat) (hk : k < ws.length) :
    Memory.readBE (commitWords (.phys a ws.length) ws s).mem (a + BitVec.ofNat 32 (4 * k)) 4 = ws[k] := by
  induction ws generalizing a s k with
  | nil => exact absurd hk (Nat.not_lt_zero k)
  | cons w rest ih =>
    have hlen : rest.length + 1 ≤ 64 := hlen
    cases k with
    | zero =>
      have h0 : a + BitVec.ofNat 32 (4 * 0) = a := BitVec.add_zero a
      rw [h0]
      refine (readBE_of_same (commitWords_others rest (.inr ⟨rest.length, rfl⟩ :
        (Grant.phys (a + 4#32) rest.length).At _) (physStore a 4 w s)).1 ?_).trans (readBE_physStore a w s)
      rintro k hk ⟨j, hj, e⟩
      have e : byteKey a (4 + j) = byteKey a k := (byteKey_add a 4 j).symm.trans e
      have := byteKey_inj (by omega) (by omega) e
      omega
    | succ k =>
      rw [← block_next]
      exact ih (a + 4#32) (physStore a 4 w s) (by omega) k (Nat.lt_of_succ_lt_succ hk)

/-- A block store in the stack cache changes nothing else. -/
theorem commitCells_leaves {P : State → Prop} (hc : ∀ s v, P s → P (s.setCache v)) (ws : List Word) (a : Word)
    {s : State} (h : P s) : P (commitWords (.cell a) ws s) := by
  induction ws generalizing a s with
  | nil => exact h
  | cons w rest ih => exact ih _ (hc _ _ h)

/-- A block store in memory changes nothing else but what is stale. -/
theorem commitPhys_leaves {P : State → Prop} (hm : ∀ s v, P s → P (s.setMem v)) (hp : ∀ s v, P s → P (s.setPfbStale v))
    (hi : ∀ s v, P s → P (s.setIcStale v)) (ws : List Word) (a : Word) {s : State} (h : P s) :
    P (commitWords (.phys a ws.length) ws s) := by
  induction ws generalizing a s with
  | nil => exact h
  | cons w rest ih => exact ih _ (hm _ _ (hi _ _ (hp _ _ h)))

/-! A quad of the window -/

/-- The address of a word of a quad. -/
theorem quad_word {m a : Word} (hm : m.toNat % 16 = 0) (ha : aligned a 4 = true) (hlo : m.toNat ≤ a.toNat)
    (hhi : a.toNat < m.toNat + 16) : ∃ k, k < 4 ∧ a = m + BitVec.ofNat 32 (4 * k) := by
  rw [aligned_iff] at ha
  refine ⟨(a.toNat - m.toNat) / 4, by omega, BitVec.eq_of_toNat_eq ?_⟩
  have := a.isLt
  rw [BitVec.toNat_add, BitVec.toNat_ofNat]
  omega

/-- Words of a window of 256 bytes have cells of their own. -/
theorem window_cells {base m a : Word} (hm : m.toNat % 16 = 0) (hb : base.toNat % 16 = 0)
    (hroom : m.toNat + 16 ≤ base.toNat + 256) (ha : aligned a 4 = true) (hlo : base.toNat ≤ a.toNat)
    (hhi : a.toNat < m.toNat) {k : Nat} (hk : k < 4) : cellIndex a ≠ cellIndex (m + BitVec.ofNat 32 (4 * k)) := by
  rw [aligned_iff] at ha
  rw [Ne, cellIndex_eq_iff, BitVec.toNat_add, BitVec.toNat_ofNat]
  have := m.isLt
  omega

/-- What the window's cells hold after the quad above it is loaded. -/
theorem readCell_loadQuad {base m : Word} (hm : m.toNat % 16 = 0) (hb : base.toNat % 16 = 0)
    (hroom : m.toNat + 16 ≤ base.toNat + 256) (mem : Memory) (s : State) {a : Word} (ha : aligned a 4 = true)
    (hlo : base.toNat ≤ a.toNat) (hhi : a.toNat < m.toNat + 16) :
    readCell a (loadQuad m (memWords mem 4 m) s) = if a.toNat < m.toNat then readCell a s else mem.readBE a 4 := by
  split
  · rename_i hlt
    exact (commitWords_others (memWords mem 4 m) (.inl rfl : (Grant.cell m).At m) s).2 (cellIndex a) fun k hk =>
      window_cells hm hb hroom ha hlo hlt (by rwa [memWords_length] at hk)
  · obtain ⟨k, hk, rfl⟩ := quad_word hm ha (by omega) hhi
    have hk' : k < (memWords mem 4 m).length := by rwa [memWords_length]
    rw [loadQuad, commitCells_get _ m s (by rw [memWords_length]; decide) k hk', memWords_get, wordAlign_of_aligned ha]

end Sys2Proof.Machine
end

section
/-! PROOF. CATCH (44_program_control.md R263): each round of its loop loads the quad above the window. -/

namespace Sys2Proof.Machine

/-- What is left when all but MSP is kept. -/
theorem noMsp_fields {s u : State} (h : u.visible.noMsp = s.visible.noMsp) :
    u.psw = s.psw ∧ u.sp = s.sp ∧ u.shad = s.shad ∧ u.vpEff = s.vpEff ∧ u.busMap = s.busMap ∧
      SameRegisters s (u.setMsp s.msp) ∧ SameEvents s u := by
  simp only [State.visible, Visible.noMsp, Visible.mk.injEq] at h
  obtain ⟨h1, -, h3, h4, -, h6, h7, h8, h9, h10, h11, h12, h13, h14, h15, h16, h17, h18, h19⟩ := h
  exact ⟨h3, h6, h7, h13, h18, ⟨h1, h4, rfl, h6, h8, h9, h10, h11, h12⟩, ⟨h14, h15, h16, h17, h18, h19⟩⟩

theorem ramBus_kept {s u : State} (h : u.visible.noMsp = s.visible.noMsp) (ht : u.turns = s.turns) :
    ramBus u = ramBus s := by
  obtain ⟨-, -, -, -, hb, -⟩ := noMsp_fields h
  rw [ramBus, ramBus, hb, ht]

theorem toNat_sub_le {a b : Word} (h : b.toNat ≤ a.toNat) : (a - b).toNat = a.toNat - b.toNat :=
  BitVec.toNat_sub_of_le h

/-- The state after some rounds of CATCH's loop towards `t`. -/
structure Caught (s : State) (t : Word) (u : State) : Prop where
  kept  : u.visible.noMsp = s.visible.noMsp
  turns : u.turns = s.turns
  mem   : u.mem = s.mem
  quad  : u.msp.toNat % 16 = 0
  above : s.msp.toNat ≤ u.msp.toNat
  room  : u.msp.toNat ≤ s.sp.toNat + 256
  last  : u.msp = s.msp ∨ u.msp - 16#32 < t
  cells : ∀ a : Word, aligned a 4 = true → s.sp.toNat ≤ a.toNat → a.toNat < u.msp.toNat →
    readCell a u = if a.toNat < s.msp.toNat then readCell a s else Memory.readBE s.mem a 4

/-- One round. -/
theorem Caught.next {s u : State} {t : Word} (h : Caught s t u) (hq : s.sp.toNat % 16 = 0)
    (hwrap : s.sp.toNat + 256 < 4294967296) (hlt : u.msp < t) (hroom : u.msp.toNat < s.sp.toNat + 256) :
    Caught s t ((loadQuad u.msp (memWords s.mem 4 u.msp) u).setMsp (u.msp + 16#32)) := by
  obtain ⟨hkept, hturns, hmem, hquad, habove, -, -, hcells⟩ := h
  have hnext : (u.msp + 16#32).toNat = u.msp.toNat + 16 := by
    rw [BitVec.toNat_add]
    have : (16#32).toNat = 16 := rfl
    omega
  have hk : (loadQuad u.msp (memWords s.mem 4 u.msp) u).visible.noMsp = s.visible.noMsp :=
    commitCells_leaves (P := fun w => w.visible.noMsp = s.visible.noMsp) (fun _ _ h => h) _ u.msp hkept
  have ht : (loadQuad u.msp (memWords s.mem 4 u.msp) u).turns = s.turns :=
    commitCells_leaves (P := fun w => w.turns = s.turns) (fun _ _ h => h) _ u.msp hturns
  have hm : (loadQuad u.msp (memWords s.mem 4 u.msp) u).mem = s.mem :=
    commitCells_leaves (P := fun w => w.mem = s.mem) (fun _ _ h => h) _ u.msp hmem
  have hc : ∀ a : Word, aligned a 4 = true → s.sp.toNat ≤ a.toNat → a.toNat < u.msp.toNat + 16 →
      readCell a (loadQuad u.msp (memWords s.mem 4 u.msp) u) =
        if a.toNat < s.msp.toNat then readCell a s else Memory.readBE s.mem a 4 := by
    intro a ha hlo hhi
    rw [readCell_loadQuad (base := s.sp) hquad hq (by omega) s.mem u ha hlo hhi]
    split
    · exact hcells a ha hlo ‹_›
    · rw [if_neg (by omega)]
  generalize loadQuad u.msp (memWords s.mem 4 u.msp) u = w at hk ht hm hc
  have hmsp : (w.setMsp (u.msp + 16#32)).msp.toNat = u.msp.toNat + 16 := hnext
  refine ⟨hk, ht, hm, by omega, by omega, by omega, .inr ?_, fun a ha hlo hhi => hc a ha hlo (by omega)⟩
  show u.msp + 16#32 - 16#32 < t
  rwa [BitVec.add_sub_cancel]

/-- The loop ends where MSP has reached the target or the cache is full. -/
theorem catchQuads_caught {s : State} {t : Word} (hv : s.vpEff = false) (hb : ramBus s = true) (hq : s.sp.toNat % 16 = 0)
    (hwrap : s.sp.toNat + 256 < 4294967296) (n : Nat) {u : State} (h : Caught s t u)
    (hfuel : s.sp.toNat + 256 ≤ u.msp.toNat + 16 * n) (hlow : s.sp.toNat ≤ s.msp.toNat) :
    ∃ w, catchQuads t n u = .ok () w ∧ Caught s t w ∧ (t ≤ w.msp ∨ w.msp.toNat = s.sp.toNat + 256) := by
  induction n generalizing u with
  | zero => exact ⟨u, rfl, h, .inr (Nat.le_antisymm h.room (by omega))⟩
  | succ k ih =>
    obtain ⟨-, hsp, -, hvp, -⟩ := noMsp_fields h.kept
    have hdist : (u.msp - u.sp).toNat = u.msp.toNat - s.sp.toNat := by
      rw [hsp]
      exact toNat_sub_le (hlow.trans h.above)
    have hsize : scSize = 256 := rfl
    unfold catchQuads
    by_cases hgo : u.msp < t ∧ (u.msp - u.sp).toNat < scSize
    · obtain ⟨hlt, hroom⟩ := hgo
      have hroom' : u.msp.toNat < s.sp.toNat + 256 := by
        have := h.above
        omega
      have hnext := h.next hq hwrap hlt hroom'
      have hb' : ramBus u = true := (ramBus_kept h.kept h.turns).trans hb
      rw [if_pos ⟨hlt, hroom⟩, checkStore_physical _ _ (hvp.trans hv) hb']
      simp only [Res.bind_ok, memoryQuad_ram _ _ _ (hvp.trans hv) hb', h.mem]
      refine ih hnext ?_
      have hadd : (u.msp + 16#32).toNat = u.msp.toNat + 16 := by
        rw [BitVec.toNat_add]
        have : (16#32).toNat = 16 := rfl
        omega
      show _ ≤ (u.msp + 16#32).toNat + 16 * k
      omega
    · rw [if_neg hgo]
      refine ⟨u, rfl, h, ?_⟩
      by_cases hlt : u.msp < t
      · have := h.room
        exact .inr (by have hn : ¬ (u.msp - u.sp).toNat < scSize := fun hr => hgo ⟨hlt, hr⟩; omega)
      · exact .inl (BitVec.not_lt.1 hlt)

theorem windowOk_iff (s : State) : windowOk s = true ↔ s.sp.toNat ≤ s.msp.toNat ∧ s.msp.toNat ≤ s.sp.toNat + 256 := by
  rw [windowOk, Bool.and_eq_true, decide_eq_true_eq, decide_eq_true_eq]
  rfl

/-- With a window in order ENTER and CATCH pass their check of it. -/
theorem checkFrame_window {s : State} (h : windowOk s = true) : checkFrame s = .ok () s := by
  refine checkFrame_ok fun _ => ?_
  exact BitVec.le_def.2 ((windowOk_iff s).1 h).1

theorem runCatch_isp {px : Bool} {m : BitVec 4} {o : Word} {n : Nat} {s : State} (hm : wordMode m = true)
    (h : pswCSP s.psw = false) : runCatch px m o n s = .ok () (completed (nextPc px n s) (quiet s) s) := by
  rw [runCatch, checkMonadic_word hm, Res.bind_ok, h, Bool.not_false, if_pos rfl, retire_eq]

/-- On SP, CATCH is its loop. -/
theorem runCatch_sp {px : Bool} {m : BitVec 4} {o : Word} {n : Nat} {s w : State} (hc : calm s = true)
    (hm : wordMode m = true) (h : pswCSP s.psw = true) (hr : frameReady m o s = true) (hw : windowOk s = true)
    (e : catchQuads (frameAddress m o s) 16 s = .ok () w) :
    runCatch px m o n s = .ok () (completed (nextPc px n s) (quiet s) w) := by
  rw [runCatch, checkMonadic_word hm, Res.bind_ok, h, Bool.not_true, if_neg Bool.false_ne_true, checkFrame_window hw,
    Res.bind_ok, frameTarget_calm m o s hc hr, Res.bind_ok, e, Res.bind_ok, retire_eq]

/-- Settles O23, by the state after each round of the loop. -/
theorem catchFillsCache : Obligations.CatchFillsCache := by
  intro i px m o n s hp hc hi hm
  obtain ⟨hv, hb, -⟩ := (plain_iff s).1 ((calm_iff s).1 hc).1
  have hq := (quadAligned_iff _).1 hi.sp
  have hqm := (quadAligned_iff _).1 hi.msp
  refine ⟨fun h => ⟨quiet s, exec_of_run_ok hp (runCatch_isp hm h)⟩, fun h hr hw hwrap => ?_⟩
  obtain ⟨hlow, hhigh⟩ := (windowOk_iff s).1 hw
  have hstart : Caught s (frameAddress m o s) s := ⟨rfl, rfl, rfl, hqm, Nat.le_refl _, hhigh, .inl rfl,
    fun a _ _ hhi => (if_pos hhi).symm⟩
  obtain ⟨w, e, hend, hstop⟩ := catchQuads_caught hv hb hq hwrap 16 hstart (by omega) hlow
  obtain ⟨hkept, -, hmem, -, habove, hroom, hlast, hcells⟩ := hend
  refine ⟨_, exec_of_run_ok hp (runCatch_sp hc hm h hr hw e), rfl, ?_⟩
  have hkept' : (completed (nextPc px n s) (quiet s) w).visible.noMsp = s.visible.noMsp := hkept
  obtain ⟨hpsw, hsp, hshad, -, -, hregs, hevents⟩ := noMsp_fields hkept'
  refine ⟨hpsw, hevents, hregs, hshad, hmem, BitVec.le_def.2 habove, (windowOk_iff _).2 ⟨?_, ?_⟩, ?_, hlast, ?_, ?_⟩
  · rw [hsp]
    exact hlow.trans habove
  · rw [hsp]
    exact hroom
  · refine hstop.imp_right fun hfull => BitVec.eq_of_toNat_eq (hfull.trans ?_)
    rw [BitVec.toNat_add]
    exact (Nat.mod_eq_of_lt hwrap).symm
  · intro a ha hlo hhi
    have hhi := BitVec.lt_def.1 hhi
    exact (hcells a ha (BitVec.le_def.1 hlo) (hhi.trans_le habove)).trans (if_pos hhi)
  · intro a ha hlo hhi
    have hlo := BitVec.le_def.1 hlo
    exact (hcells a ha (hlow.trans hlo) (BitVec.lt_def.1 hhi)).trans (if_neg (Nat.not_lt.2 hlo))

end Sys2Proof.Machine
end

section
/-! PROOF. ENTER on SP (44_program_control.md R266): each round of its loop writes the highest quad of the stack cache to
memory. -/

namespace Sys2Proof.Machine

/-! A quad written -/

theorem flushQuad_ram {u : State} (hv : u.vpEff = false) (hb : ramBus u = true) :
    flushQuad u = .ok () ((commitWords (.phys (u.msp - 16#32) 4) (cellWords (u.msp - 16#32) 4 u) u).setMsp
      (u.msp - 16#32)) := by
  rw [flushQuad, dataAddress_physical _ _ _ _ _ hv hb]
  simp only [Res.bind_ok, claim, readAhead_hidden _ _ (readsShow_ram u hv hb), takenWords_ram _ _ _ _ hb]

/-- The key of a byte of a word or quad that does not wrap. -/
theorem byteKey_toNat {a : Word} {k : Nat} (h : a.toNat + k < 4294967296) : byteKey a k = a.toNat + k := by
  rw [byteKey, BitVec.toNat_add, BitVec.toNat_ofNat]
  omega

theorem not_inBytes_of {a : Word} {n k : Nat} (hn : a.toNat + n ≤ 4294967296) (h : k < a.toNat ∨ a.toNat + n ≤ k) :
    ¬ inBytes a n k := by
  rintro ⟨j, hj, e⟩
  rw [byteKey_toNat (by omega)] at e
  omega

/-- What the words of memory are after the quad at `m` is written. -/
theorem readBE_commitQuad {m : Word} (hm : m.toNat % 16 = 0) (u : State) {a : Word} (ha : aligned a 4 = true)
    (hlo : m.toNat ≤ a.toNat) :
    Memory.readBE (commitWords (.phys m 4) (cellWords m 4 u) u).mem a 4 =
      if a.toNat < m.toNat + 16 then readCell a u else Memory.readBE u.mem a 4 := by
  split
  · rename_i hhi
    obtain ⟨k, hk, rfl⟩ := quad_word hm ha hlo hhi
    have hk' : k < (cellWords m 4 u).length := by rwa [cellWords_length]
    exact (commitPhys_get (cellWords m 4 u) m u (by rw [cellWords_length]; decide) k hk').trans (cellWords_get 4 m u k hk')
  · have hother := (commitWords_others (cellWords m 4 u) (.inr ⟨4, rfl⟩ : (Grant.phys m 4).At m) u).1
    refine readBE_of_same hother fun k hk => not_inBytes_of ?_ ?_
    · have := m.isLt
      have : (cellWords m 4 u).length = 4 := rfl
      omega
    · rw [aligned_iff] at ha
      have := a.isLt
      have : (cellWords m 4 u).length = 4 := rfl
      rw [byteKey_toNat (by omega)]
      omega

/-! The loop -/

/-- The state after some rounds of ENTER's loop; with a target none goes further down than 256 above it. -/
structure Flushed (s : State) (target : Option Word) (u : State) : Prop where
  kept    : u.visible.noMsp = s.visible.noMsp
  turns   : u.turns = s.turns
  cache   : u.cache = s.cache
  quad    : u.msp.toNat % 16 = 0
  above   : s.sp.toNat ≤ u.msp.toNat
  below   : u.msp.toNat ≤ s.msp.toNat
  last    : u.msp = s.msp ∨ ∀ t, target = some t → t.toNat + 256 ≤ u.msp.toNat
  written : ∀ a : Word, aligned a 4 = true → u.msp.toNat ≤ a.toNat → a.toNat < s.msp.toNat →
    Memory.readBE u.mem a 4 = readCell a s
  others  : ∀ k : Nat, k < u.msp.toNat ∨ s.msp.toNat ≤ k → Memory.read u.mem k = Memory.read s.mem k

/-- Whether the loop goes on, as far as the target says. -/
def flushMore (target : Option Word) (u : State) : Bool :=
  match target with
  | none => true
  | some t => decide (scSize < (u.msp - t).toNat)

theorem flushQuads_succ (target : Option Word) (k : Nat) (u : State) :
    flushQuads target (k + 1) u =
      if u.msp ≠ u.sp ∧ flushMore target u = true then (flushQuad u).bind fun _ u => flushQuads target k u
      else .ok () u := by
  cases target <;> rfl

/-- A target that the loop can flush towards: a quad address that is not above SP. -/
def BelowSp (s : State) (target : Option Word) : Prop := ∀ t, target = some t → t.toNat % 16 = 0 ∧ t.toNat ≤ s.sp.toNat

/-- One round. -/
theorem Flushed.next {s u : State} {target : Option Word} (h : Flushed s target u) (hq : s.sp.toNat % 16 = 0)
    (ht : BelowSp s target) (hne : s.sp.toNat < u.msp.toNat) (hmore : flushMore target u = true) :
    Flushed s target ((commitWords (.phys (u.msp - 16#32) 4) (cellWords (u.msp - 16#32) 4 u) u).setMsp
      (u.msp - 16#32)) := by
  obtain ⟨hkept, hturns, hcache, hquad, habove, hbelow, -, hwritten, hothers⟩ := h
  have hlow : (u.msp - 16#32).toNat = u.msp.toNat - 16 := BitVec.toNat_sub_of_le (BitVec.le_def.2 (by
    have : (16#32).toNat = 16 := rfl
    omega))
  have hlast : ∀ t, target = some t → t.toNat + 256 ≤ (u.msp - 16#32).toNat := by
    rintro t rfl
    obtain ⟨hqt, hts⟩ := ht t rfl
    have hgo : scSize < (u.msp - t).toNat := of_decide_eq_true hmore
    rw [toNat_sub_le (by omega)] at hgo
    have : scSize = 256 := rfl
    omega
  have hreads := fun (a : Word) (ha : aligned a 4 = true) (hlo : (u.msp - 16#32).toNat ≤ a.toNat) =>
    readBE_commitQuad (m := u.msp - 16#32) (by omega) u ha hlo
  have hsame := (commitWords_others (cellWords (u.msp - 16#32) 4 u) (.inr ⟨4, rfl⟩ :
    (Grant.phys (u.msp - 16#32) 4).At (u.msp - 16#32)) u).1
  have hk : (commitWords (.phys (u.msp - 16#32) 4) (cellWords (u.msp - 16#32) 4 u) u).visible.noMsp = s.visible.noMsp :=
    commitPhys_leaves (P := fun w => w.visible.noMsp = s.visible.noMsp) (fun _ _ h => h) (fun _ _ h => h)
      (fun _ _ h => h) (cellWords (u.msp - 16#32) 4 u) _ hkept
  have hturns' : (commitWords (.phys (u.msp - 16#32) 4) (cellWords (u.msp - 16#32) 4 u) u).turns = s.turns :=
    commitPhys_leaves (P := fun w => w.turns = s.turns) (fun _ _ h => h) (fun _ _ h => h)
      (fun _ _ h => h) (cellWords (u.msp - 16#32) 4 u) _ hturns
  have hc : (commitWords (.phys (u.msp - 16#32) 4) (cellWords (u.msp - 16#32) 4 u) u).cache = s.cache :=
    commitPhys_leaves (P := fun w => w.cache = s.cache) (fun _ _ h => h) (fun _ _ h => h)
      (fun _ _ h => h) (cellWords (u.msp - 16#32) 4 u) _ hcache
  have hlen : (cellWords (u.msp - 16#32) 4 u).length = 4 := rfl
  rw [hlen] at hsame
  generalize commitWords (.phys (u.msp - 16#32) 4) (cellWords (u.msp - 16#32) 4 u) u = w at hreads hsame hk hturns' hc
  have hmsp : (w.setMsp (u.msp - 16#32)).msp.toNat = u.msp.toNat - 16 := hlow
  refine ⟨hk, hturns', hc, by omega, by omega, by omega, .inr hlast, fun a ha hlo hhi => ?_, fun k hk => ?_⟩
  · refine (hreads a ha hlo).trans ?_
    split
    · rw [readCell, readCell, hcache]
    · exact hwritten a ha (by omega) hhi
  · refine (hsame k (not_inBytes_of ?_ ?_)).trans (hothers k ?_)
    · have := u.msp.isLt
      omega
    · omega
    · omega

/-- The loop ends where the cache is empty, or the frame and the cache fit. -/
theorem flushQuads_flushed {s : State} {target : Option Word} (hv : s.vpEff = false) (hb : ramBus s = true)
    (hq : s.sp.toNat % 16 = 0) (ht : BelowSp s target) (n : Nat) {u : State} (h : Flushed s target u)
    (hfuel : u.msp.toNat ≤ s.sp.toNat + 16 * n) :
    ∃ w, flushQuads target n u = .ok () w ∧ Flushed s target w ∧ (w.msp = s.sp ∨ flushMore target w = false) := by
  induction n generalizing u with
  | zero => exact ⟨u, rfl, h, .inl (BitVec.eq_of_toNat_eq (Nat.le_antisymm hfuel h.above))⟩
  | succ k ih =>
    obtain ⟨-, hsp, -, hvp, -⟩ := noMsp_fields h.kept
    rw [flushQuads_succ]
    by_cases hgo : u.msp ≠ u.sp ∧ flushMore target u = true
    · obtain ⟨hne, hmore⟩ := hgo
      have hlt : s.sp.toNat < u.msp.toNat := by
        refine Nat.lt_of_le_of_ne h.above fun e => hne ?_
        rw [hsp]
        exact (BitVec.eq_of_toNat_eq e).symm
      rw [if_pos ⟨hne, hmore⟩, flushQuad_ram (hvp.trans hv) ((ramBus_kept h.kept h.turns).trans hb), Res.bind_ok]
      refine ih (h.next hq ht hlt hmore) ?_
      have hlow : (u.msp - 16#32).toNat = u.msp.toNat - 16 := BitVec.toNat_sub_of_le (BitVec.le_def.2 (by
        have := h.quad
        have : (16#32).toNat = 16 := rfl
        omega))
      show (u.msp - 16#32).toNat ≤ _
      omega
    · rw [if_neg hgo]
      refine ⟨u, rfl, h, ?_⟩
      by_cases hne : u.msp = u.sp
      · exact .inl (hne.trans hsp)
      · exact .inr (Bool.eq_false_iff.2 fun hm => hgo ⟨hne, hm⟩)

/-- With a window in order, and an empty one where the cache is off, what ENTER flushes is known. -/
theorem unknownCells_window {s : State} (hw : windowOk s = true) (h : configSC s.configEff = true ∨ s.sp = s.msp) :
    unknownCells s = s := by
  unfold unknownCells
  rw [hw]
  rcases h with h | h
  · rw [h]
    rfl
  · rw [h]
    cases configSC s.configEff
    · rw [if_neg Bool.false_ne_true, bne_self_eq_false, if_neg Bool.false_ne_true]
    · rfl

/-- ENTER's loop from the state before it. -/
theorem flushQuads_window {s : State} {target : Option Word} (hc : calm s = true) (hi : Inv s) (hw : windowOk s = true)
    (ht : BelowSp s target) : ∃ w, flushQuads target (windowQuads s) s = .ok () w ∧ Flushed s target w ∧
      (w.msp = s.sp ∨ flushMore target w = false) := by
  obtain ⟨hv, hb, -⟩ := (plain_iff s).1 ((calm_iff s).1 hc).1
  have hq := (quadAligned_iff _).1 hi.sp
  have hqm := (quadAligned_iff _).1 hi.msp
  obtain ⟨hlow, -⟩ := (windowOk_iff s).1 hw
  refine flushQuads_flushed hv hb hq ht _ ⟨rfl, rfl, rfl, hqm, hlow, Nat.le_refl _, .inl rfl, ?_, fun _ _ => rfl⟩ ?_
  · exact fun a _ hlo hhi => absurd hhi (Nat.not_lt.2 hlo)
  · unfold windowQuads
    omega

/-! The end -/

/-- What ENTER leaves of the registers. -/
structure Entered (s : State) (c m : Word) (t : State) : Prop where
  psw       : t.psw = putBit s.psw flagE true
  events    : SameEvents s t
  sp        : t.sp = c
  msp       : t.msp = m
  shad      : t.shad = c
  registers : SameRegisters s ((t.setSp s.sp).setMsp s.msp)

theorem entered_of {s w x t : State} {c m : Word} (hk : w.visible.noMsp = s.visible.noMsp)
    (hx : x.visible = (((w.setSp c).setShad c).setMsp m).visible)
    (ht : t.visible = { x.visible with psw := putBit x.visible.psw flagE true }) : Entered s c m t := by
  obtain ⟨hpsw, -, -, -, -, hregs, hevents⟩ := noMsp_fields hk
  rw [hx] at ht
  simp only [State.visible, Visible.mk.injEq] at ht
  obtain ⟨h1, -, h3, h4, h5, h6, h7, h8, h9, h10, h11, h12, -, h14, h15, h16, h17, h18, h19⟩ := ht
  refine ⟨h3.trans ?_, ⟨h14.trans hevents.t1Pending, h15.trans hevents.t2Pending, h16.trans hevents.nmiArmed,
    h17.trans hevents.tracePending, h18.trans hevents.busMap, h19.trans hevents.pins⟩, h6, h5, h7,
    ⟨h1.trans hregs.config, h4.trans hregs.isp, rfl, rfl, h8.trans hregs.vb, h9.trans hregs.stb, h10.trans hregs.fault,
      h11.trans hregs.timer1, h12.trans hregs.timer2⟩⟩
  rw [← hpsw]
  rfl

/-- The state after ENTER, from the one after its loop and its last moves. -/
def enterEnd (px : Bool) (n : Nat) (s x : State) : State :=
  completed (nextPc px n s) { movedShad s x with flags := flagBit flagE true } (x.setPsw (putBit x.psw flagE true))

theorem enterEnd_visible (px : Bool) (n : Nat) (s x : State) :
    (enterEnd px n s x).visible = { x.visible with psw := putBit x.visible.psw flagE true } := rfl

theorem setCsp_sp {c : Word} {w : State} (h : pswCSP w.psw = true) (hq : quadAlign c = c) :
    setCsp c w = (w.setSp c).setShad c := by
  rw [setCsp, if_pos h, hq]

section
variable {px : Bool} {m : BitVec 4} {o c : Word} {n : Nat} {s w : State} (hc : calm s = true)
  (hcsp : pswCSP s.psw = true) (hm : wordMode m = true) (hl : enterLegal m o n = true) (hr : frameReady m o s = true)
  (hw : windowOk s = true) (hempty : configSC s.configEff = true ∨ s.sp = s.msp) (hq : c = quadAlign (frameAddress m o s))
  (hk : w.visible.noMsp = s.visible.noMsp) (ht : w.turns = s.turns)
include hc hcsp hm hl hr hw hempty hq hk ht

/-- ENTER to an address, once the cache is flushed. -/
theorem runEnter_empty (hmode : m ≠ 0xD#4) (e : flushQuads none (windowQuads s) s = .ok () w) :
    runEnter px m o n s = .ok () (enterEnd px n s (((w.setSp c).setShad c).setMsp c)) := by
  obtain ⟨hv, hb, -⟩ := (plain_iff s).1 ((calm_iff s).1 hc).1
  obtain ⟨hpsw, -, -, hvp, -⟩ := noMsp_fields hk
  have hcq : quadAlign c = c := by rw [hq, quadAlign_quadAlign]
  have hmode' : (m == 0xD#4) = false := beq_eq_false_iff_ne.2 hmode
  rw [runEnter_calm px m o n s hc hm hl hr fun _ => BitVec.le_def.2 ((windowOk_iff s).1 hw).1, hcsp, hmode', ← hq]
  simp only [Bool.not_true, Bool.false_eq_true, if_false, enterEmpty, unknownCells_window hw hempty, e, Res.bind_ok,
    checkStore_physical _ w (hvp.trans hv) ((ramBus_kept hk ht).trans hb), enterDone, retire_eq, Res.after, dropLost_nil,
    setCsp_sp (hpsw ▸ hcsp) hcq]
  rfl

/-- ENTER by a stack offset, once the loop has made room. -/
theorem runEnter_offset {msp : Word} (hmode : m = 0xD#4) (e : flushQuads (some c) (windowQuads s) s = .ok () w)
    (hmsp : msp = if scSize < (w.msp - c).toNat then c + 256#32 else w.msp) :
    runEnter px m o n s = .ok () (enterEnd px n s (exposeCells c s.sp (((w.setSp c).setShad c).setMsp msp))) := by
  obtain ⟨hv, hb, -⟩ := (plain_iff s).1 ((calm_iff s).1 hc).1
  obtain ⟨hpsw, -, -, hvp, -⟩ := noMsp_fields hk
  have hcq : quadAlign c = c := by rw [hq, quadAlign_quadAlign]
  have hmode' : (m == 0xD#4) = true := beq_iff_eq.2 hmode
  have hcheck : ∀ a, checkStore a w = .ok () w := fun a =>
    checkStore_physical a w (hvp.trans hv) ((ramBus_kept hk ht).trans hb)
  rw [runEnter_calm px m o n s hc hm hl hr fun _ => BitVec.le_def.2 ((windowOk_iff s).1 hw).1, hcsp, hmode', ← hq]
  simp only [Bool.not_true, Bool.false_eq_true, if_false, if_true, enterOffset, unknownCells_window hw hempty, e,
    Res.bind_ok, hcheck, ite_self, enterDone, retire_eq, Res.after, dropLost_nil, setCsp_sp (hpsw ▸ hcsp) hcq, ← hmsp]
  rfl

end

/-- Settles O25: the loop runs until nothing is in the cache. -/
theorem enterFlushesWholeCache : Obligations.EnterFlushesWholeCache := by
  intro i px m o c n s hp hc hi hcsp hm hmode hr hw hempty hq
  have hbelow : BelowSp s none := fun t h => nomatch h
  obtain ⟨w, e, ⟨hk, ht, -, -, -, -, -, hwritten, hothers⟩, hend⟩ := flushQuads_window hc hi hw hbelow
  have hmsp : w.msp = s.sp := hend.resolve_right fun h => nomatch h
  have hl : enterLegal m o n = true := by
    rw [enterLegal, bne_iff_ne.2 hmode, Bool.true_or]
  have hrun := runEnter_empty (px := px) hc hcsp hm hl hr hw hempty hq hk ht hmode e
  have hent : Entered s c c (enterEnd px n s (((w.setSp c).setShad c).setMsp c)) := entered_of hk rfl (enterEnd_visible _ _ _ _)
  rw [hmsp] at hwritten hothers
  exact ⟨_, exec_of_run_ok hp hrun, rfl, hent.psw, hent.events, hent.sp, hent.msp, hent.shad, hent.registers,
    fun a ha hlo hhi => hwritten a ha (BitVec.le_def.1 hlo) (BitVec.lt_def.1 hhi), hothers⟩

/-! ENTER by a stack offset -/

/-- Where a frame that does not wrap begins. -/
theorem frame_below {sp o c : Word} (ho : o.getLsbD 31 = true) (hwrap : 0 ≤ (sp.toNat : Int) + signed o)
    (hc : c = quadAlign (sp + o)) : c.toNat % 16 = 0 ∧ c.toNat ≤ sp.toNat := by
  have hneg : signed o = (o.toNat : Int) - 4294967296 := by
    rw [signed, BitVec.toInt_eq_msb_cond, BitVec.msb_eq_getLsbD_last, if_pos ho]
    rfl
  have hadd : (sp + o).toNat = sp.toNat + o.toNat - 4294967296 := by
    rw [BitVec.toNat_add]
    have := o.isLt
    have := sp.isLt
    omega
  have := o.isLt
  rw [hc, quadAlign_toNat, hadd]
  omega

/-- The cells of the part of the window that stays are not exposed. -/
theorem readCell_exposeCells {c sp a : Word} (hc : c.toNat % 16 = 0) (hlo : c.toNat ≤ sp.toNat) (ha : aligned a 4 = true)
    (hsp : sp.toNat ≤ a.toNat) (hhi : a.toNat < c.toNat + 256) (w : State) :
    readCell a (exposeCells c sp w) = readCell a w := by
  have hcell : cellWithin c (min (sp - c).toNat scSize) (cellIndex a) = false := by
    rw [aligned_iff] at ha
    have hsize : scSize = 256 := rfl
    have hindex : (cellIndex a).val = a.toNat / 4 % 64 := rfl
    have := a.isLt
    have := c.isLt
    rw [cellWithin, decide_eq_false_iff_not, toNat_sub_le hlo, hindex, BitVec.toNat_sub, BitVec.toNat_ofNat, hsize]
    omega
  show (Vector.ofFn _)[cellIndex a] = w.cache[cellIndex a]
  rw [Fin.getElem_fin, Vector.getElem_ofFn]
  exact if_neg (Bool.eq_false_iff.1 hcell)

theorem exposeCells_visible (c sp : Word) (w : State) : (exposeCells c sp w).visible = w.visible :=
  (visible_loose w).scrambleCells _ rfl

/-- MSP after ENTER by a stack offset: where the loop left it, that leaves room; else the cache is empty and the frame
lies further below. -/
theorem offset_cases {s w : State} {c msp : Word} (h : Flushed s (some c) w) (hcs : c.toNat ≤ s.sp.toNat)
    (hend : w.msp = s.sp ∨ flushMore (some c) w = false)
    (hmsp : msp = if scSize < (w.msp - c).toNat then c + 256#32 else w.msp) :
    (msp = w.msp ∧ w.msp.toNat ≤ c.toNat + 256) ∨
      (w.msp = s.sp ∧ c.toNat + 256 < s.sp.toNat ∧ msp = c + 256#32 ∧ msp.toNat = c.toNat + 256) := by
  have hsize : scSize = 256 := rfl
  have hdist : (w.msp - c).toNat = w.msp.toNat - c.toNat := toNat_sub_le (hcs.trans h.above)
  by_cases hfar : scSize < (w.msp - c).toNat
  · rw [if_pos hfar] at hmsp
    have hsp : w.msp = s.sp := hend.resolve_right fun hm => of_decide_eq_false hm hfar
    rw [hdist, hsp] at hfar
    refine .inr ⟨hsp, by omega, hmsp, ?_⟩
    have := s.sp.isLt
    rw [hmsp, BitVec.toNat_add]
    exact Nat.mod_eq_of_lt (by have : (256#32).toNat = 256 := rfl; omega)
  · rw [if_neg hfar] at hmsp
    exact .inl ⟨hmsp, by omega⟩

/-- It is what 44_program_control.md R266 says. -/
theorem offset_msp {s w : State} {c msp : Word} (h : Flushed s (some c) w)
    (hcases : (msp = w.msp ∧ w.msp.toNat ≤ c.toNat + 256) ∨
      (w.msp = s.sp ∧ c.toNat + 256 < s.sp.toNat ∧ msp = c + 256#32 ∧ msp.toNat = c.toNat + 256)) :
    msp = if 256 < s.msp.toNat - c.toNat then c + 256#32 else s.msp := by
  have hlow : s.sp.toNat ≤ s.msp.toNat := h.above.trans h.below
  have hunder := h.below
  rcases hcases with ⟨rfl, hfit⟩ | ⟨hsp, hfar, hmsp, -⟩
  · split
    · have hl := h.last.resolve_left (fun e => by rw [e] at hfit; omega) c rfl
      refine BitVec.eq_of_toNat_eq ?_
      rw [BitVec.toNat_add, BitVec.toNat_ofNat]
      have := w.msp.isLt
      omega
    · exact h.last.elim id fun hl => BitVec.eq_of_toNat_eq (by have := hl c rfl; omega)
  · rw [if_pos (by omega), hmsp]

/-- Settles O26: the loop stops at the first MSP that leaves room, or with an empty cache that the frame lies below. -/
theorem enterByStackOffset : Obligations.EnterByStackOffset := by
  intro i px m o c n s hp hc hi hcsp hmode hl hwrap hw hempty hq
  subst hmode
  have haddr : frameAddress 0xD#4 o s = s.sp + o := by
    show csp s + o = _
    rw [csp, if_pos hcsp]
  have ho : o.getLsbD 31 = true := by
    simp only [enterLegal, bne_self_eq_false, Bool.false_or, Bool.and_eq_true] at hl
    exact hl.1
  obtain ⟨hqc, hcs⟩ := frame_below ho hwrap hq
  have hbelow : BelowSp s (some c) := fun t h => by
    cases h
    exact ⟨hqc, hcs⟩
  obtain ⟨w, e, hf, hend⟩ := flushQuads_window hc hi hw hbelow
  generalize hmsp : (if scSize < (w.msp - c).toNat then c + 256#32 else w.msp) = msp
  have hcases := offset_cases hf hcs hend hmsp.symm
  have hrun := runEnter_offset (px := px) (n := n) hc hcsp rfl hl rfl hw hempty (by rw [haddr]; exact hq) hf.kept hf.turns
    rfl e hmsp.symm
  have hent : Entered s c msp (enterEnd px n s (exposeCells c s.sp (((w.setSp c).setShad c).setMsp msp))) :=
    entered_of hf.kept (exposeCells_visible _ _ _) (enterEnd_visible _ _ _ _)
  have habove := hf.above
  -- The frame's window is in order, and what the loop left below MSP is below its own.
  have hfit : c.toNat ≤ msp.toNat ∧ msp.toNat ≤ c.toNat + 256 ∧ msp.toNat ≤ w.msp.toNat := by
    rcases hcases with ⟨rfl, hfit⟩ | ⟨hsp, hfar, -, hn⟩
    · omega
    · rw [hsp]
      omega
  have hup : ∀ x : Nat, s.sp.toNat ≤ x → msp.toNat ≤ x → w.msp.toNat ≤ x := by
    intro x hx hx'
    rcases hcases with ⟨rfl, -⟩ | ⟨hsp, -, -⟩
    · exact hx'
    · rwa [hsp]
  refine ⟨_, exec_of_run_ok hp hrun, rfl, hent.psw, hent.events, hent.sp, hent.shad, hent.registers,
    hent.msp.trans (offset_msp hf hcases), (windowOk_iff _).2 ?_, ?_, ?_, ?_⟩
  · rw [hent.sp, hent.msp]
    exact ⟨hfit.1, hfit.2.1⟩
  · intro a ha hlo hmid hhi
    rw [hent.msp] at hmid
    exact hf.written a ha (hup _ (BitVec.le_def.1 hlo) (BitVec.le_def.1 hmid)) (BitVec.lt_def.1 hhi)
  · intro a ha hlo hhi
    rw [hent.msp] at hhi
    have hcell := readCell_exposeCells hqc hcs ha (BitVec.le_def.1 hlo)
      (Nat.lt_of_lt_of_le (BitVec.lt_def.1 hhi) hfit.2.1) (((w.setSp c).setShad c).setMsp msp)
    refine Eq.trans hcell ?_
    show w.cache[cellIndex a] = s.cache[cellIndex a]
    rw [hf.cache]
  · intro k hk
    rw [hent.msp] at hk
    exact hf.others k (by omega)

end Sys2Proof.Machine
end

section
/-! PROOF. CRET (44_program_control.md R264): the quads of the restored window are loaded from SP up. -/

namespace Sys2Proof.Machine

/-- The state after the cells from `base` up to `top` were loaded. -/
structure Filled (s : State) (base : Word) (top : Nat) (u : State) : Prop where
  kept   : u.visible = s.visible
  turns  : u.turns = s.turns
  recent : u.recent = s.recent
  mem    : u.mem = s.mem
  cells  : ∀ a : Word, aligned a 4 = true → base.toNat ≤ a.toNat → a.toNat < top →
    readCell a u = Memory.readBE s.mem a 4

section
variable {s u : State}

theorem vpEff_visible (h : u.visible = s.visible) : u.vpEff = s.vpEff := (visible_rest h).2.2.2

theorem ramBus_visible (h : u.visible = s.visible) (ht : u.turns = s.turns) : ramBus u = ramBus s :=
  ramBus_kept (congrArg Visible.noMsp h) ht

end

/-- One round. -/
theorem Filled.next {s u : State} {base a : Word} (h : Filled s base a.toNat u) (hqb : base.toNat % 16 = 0)
    (hq : a.toNat % 16 = 0) (hroom : a.toNat + 16 ≤ base.toNat + 256) :
    Filled s base (a.toNat + 16) (loadQuad a (memWords s.mem 4 a) u) := by
  obtain ⟨hkept, hturns, hrecent, hmem, hcells⟩ := h
  refine ⟨?_, ?_, ?_, ?_, fun x hx hlo hhi => ?_⟩
  · exact commitCells_leaves (P := fun w => w.visible = s.visible) (fun _ _ h => h) _ a hkept
  · exact commitCells_leaves (P := fun w => w.turns = s.turns) (fun _ _ h => h) _ a hturns
  · exact commitCells_leaves (P := fun w => w.recent = s.recent) (fun _ _ h => h) _ a hrecent
  · exact commitCells_leaves (P := fun w => w.mem = s.mem) (fun _ _ h => h) _ a hmem
  · rw [readCell_loadQuad hq hqb hroom s.mem u hx hlo hhi]
    split
    · exact hcells x hx hlo ‹_›
    · rfl

theorem fillQuads_filled {s : State} {base : Word} (user : Bool) (hv : s.vpEff = false) (hb : ramBus s = true)
    (hqb : base.toNat % 16 = 0) (n : Nat) {a : Word} {u : State} (h : Filled s base a.toNat u) (hq : a.toNat % 16 = 0)
    (hroom : a.toNat + 16 * n ≤ base.toNat + 256) (hwrap : a.toNat + 16 * n < 4294967296) :
    ∃ w, fillQuads user a n u = .ok () w ∧ Filled s base (a.toNat + 16 * n) w := by
  induction n generalizing a u with
  | zero => exact ⟨u, rfl, h⟩
  | succ k ih =>
    have hnext : (a + 16#32).toNat = a.toNat + 16 := by
      rw [BitVec.toNat_add]
      exact Nat.mod_eq_of_lt (by have : (16#32).toNat = 16 := rfl; omega)
    have hround := h.next hqb hq (by omega)
    rw [← hnext] at hround
    obtain ⟨w, e, hw⟩ := ih hround (by omega) (by omega) (by omega)
    refine ⟨w, ?_, ?_⟩
    · rw [fillQuads, memoryQuad_ram user a u ((vpEff_visible h.kept).trans hv)
        ((ramBus_visible h.kept h.turns).trans hb), Res.bind_ok, h.mem]
      exact e
    · rw [hnext] at hw
      have htop : a.toNat + 16 * (k + 1) = a.toNat + 16 + 16 * k := by omega
      rwa [htop]

/-- Scrambled cells are as good as none loaded. -/
theorem Filled.scrambled (s : State) (base : Word) (c : Fin 64 → Bool) : Filled s base 0 (scrambleCells c s) := by
  have hkeep : ∀ P : State → Prop, (∀ u v, P u → P (u.setFree v)) → (∀ u v, P u → P (u.setCache v)) → P s →
      P (scrambleCells c s) := fun P hf hc h => hf _ _ (hc _ _ h)
  exact ⟨hkeep (fun u => u.visible = s.visible) (fun _ _ h => h) (fun _ _ h => h) rfl,
    hkeep (fun u => u.turns = s.turns) (fun _ _ h => h) (fun _ _ h => h) rfl,
    hkeep (fun u => u.recent = s.recent) (fun _ _ h => h) (fun _ _ h => h) rfl,
    hkeep (fun u => u.mem = s.mem) (fun _ _ h => h) (fun _ _ h => h) rfl,
    fun a _ _ hhi => absurd hhi (Nat.not_lt_zero _)⟩

theorem onTrap_ok {α : Type} (a : α) (s : State) (f : State → State) : (Res.ok a s).onTrap f = .ok a s := rfl

theorem setVpEff_self {s : State} {b : Bool} (h : s.vpEff = b) : s.setVpEff b = s := by
  subst h
  cases s
  rfl

/-- The fill of CRET, under physical addressing before and after. -/
theorem cretFill_physical {s : State} {sp msp p : Word} (hv : s.vpEff = false) (hb : ramBus s = true)
    (hp : pswVP p = false) (hq : sp.toNat % 16 = 0) (hqm : msp.toNat % 16 = 0) (hlow : sp.toNat ≤ msp.toNat)
    (hhigh : msp.toNat ≤ sp.toNat + 256) :
    ∃ w, cretFill sp msp p s = .ok () w ∧ Filled s sp (if pswCSP p then msp.toNat else 0) w := by
  have hself : s.setVpEff false = s := setVpEff_self hv
  unfold cretFill
  split
  · have hwrap := msp.isLt
    have hstart : Filled s sp sp.toNat s := ⟨rfl, rfl, rfl, rfl, fun a _ hlo hhi => absurd hhi (Nat.not_lt.2 hlo)⟩
    obtain ⟨w, e, hw⟩ := fillQuads_filled false hv hb hq ((msp.toNat - sp.toNat) / 16) hstart hq (by omega) (by omega)
    have htop : sp.toNat + 16 * ((msp.toNat - sp.toNat) / 16) = msp.toNat := by omega
    rw [htop] at hw
    refine ⟨w, ?_, hw⟩
    rw [hp, hself, e, onTrap_ok, Res.bind_ok, hv, setVpEff_self ((vpEff_visible hw.kept).trans hv)]
  · exact ⟨_, rfl, .scrambled s sp _⟩

/-- The restored stack's bit of PSW is there. -/
theorem pswCSP_mask (p : Word) : pswCSP (p &&& pswMask) = pswCSP p := by
  have hm : pswMask.getLsbD 9 = true := by decide
  rw [pswCSP, pswCSP, BitVec.getLsbD_and, hm, Bool.and_true]

section
variable {s w : State} {sp msp : Word} (hk : w.visible = s.visible)
include hk

/-- The state after the fill, under the restored window, before PC is read. -/
theorem cret_window (hp : plain s = true) (ht : w.turns = s.turns) (hr : w.recent = s.recent)
    (hlow : sp.toNat ≤ msp.toNat) (hhigh : msp.toNat ≤ sp.toNat + 256) :
    plain ((w.setSp sp).setMsp msp) = true ∧ usable ((w.setSp sp).setMsp msp) = true := by
  obtain ⟨hv, hb, hrec⟩ := (plain_iff s).1 hp
  have hwin : windowOk ((w.setSp sp).setMsp msp) = true := (windowOk_iff _).2 ⟨hlow, hhigh⟩
  have hb' : ramBus w = true := (ramBus_visible hk ht).trans hb
  refine ⟨(plain_iff _).2 ⟨(vpEff_visible hk).trans hv, hb', ?_⟩, ?_⟩
  · show w.recent.all Recent.harmless = true
    rwa [hr]
  · rw [usable, hwin, Bool.or_true]

theorem hits_visible (a : Word) : hits a ((w.setSp sp).setMsp msp) = hits a ((s.setSp sp).setMsp msp) := by
  have hk' := hk
  simp only [State.visible, Visible.mk.injEq] at hk'
  obtain ⟨-, hc, -⟩ := hk'
  show (configSC w.configEff && decide (sp ≤ a) && decide (a < msp)) = _
  rw [hc]
  rfl

end

/-- CRET once its frame is read and the cache filled. -/
theorem runCret_filled {s w : State} {sp msp : Word} (hp : plain s = true) (hus : usable s = true)
    (hx : pswX s.psw = false)
    (hframe : ∀ k : Fin 4, aligned (s.isp + BitVec.ofNat 32 (4 * k.val)) 4 = true ∧
      hits (s.isp + BitVec.ofNat 32 (4 * k.val)) s = false)
    (hsp : sp = quadAlign (load 4 s.isp s)) (hmsp : msp = quadAlign (load 4 (s.isp + 4#32) s))
    (hfill : cretFill sp msp (load 4 (s.isp + 12#32) s) s = .ok () w) {t : Word}
    (hpc : sequenceRead (s.isp + 8#32) ((w.setSp sp).setMsp msp) = .ok t ((w.setSp sp).setMsp msp))
    (hisp : w.isp = s.isp) :
    runCret s = leaveKernel t (load 4 (s.isp + 12#32) s) ((w.setSp sp).setMsp msp) := by
  obtain ⟨ha0, hh0⟩ := hframe 0
  obtain ⟨ha4, hh4⟩ := hframe 1
  obtain ⟨ha12, hh12⟩ := hframe 3
  have hzero : s.isp + BitVec.ofNat 32 (4 * (0 : Fin 4).val) = s.isp := BitVec.add_zero _
  rw [hzero] at ha0 hh0
  have h0 := sequenceRead_plain _ s hp hus hh0 ha0
  have h4 := sequenceRead_plain _ s hp hus hh4 ha4
  have h12 := sequenceRead_plain _ s hp hus hh12 ha12
  have e4 : s.isp + BitVec.ofNat 32 (4 * (1 : Fin 4).val) = s.isp + 4#32 := rfl
  have e12 : s.isp + BitVec.ofNat 32 (4 * (3 : Fin 4).val) = s.isp + 12#32 := rfl
  rw [e4] at h4
  rw [e12] at h12
  have hisp' : ((w.setSp sp).setMsp msp).isp = s.isp := hisp
  simp only [runCret, hx, raiseIf_false, Res.bind_ok, h0, h4, h12, onTrap_ok, ← hsp, ← hmsp, hfill, hisp', hpc]

/-- What leaving the kernel makes of the state. -/
structure LeftKernel (x : State) (pc p : Word) (t : State) : Prop where
  ended     : t.ended = .completed
  sp        : t.sp = x.sp
  msp       : t.msp = x.msp
  psw       : t.psw = p &&& pswMask
  pc        : t.pc = textAlign pc
  isp       : t.isp = x.isp + 16#32
  shad      : t.shad = csp t
  mem       : t.mem = x.mem
  cache     : t.cache = x.cache
  config    : t.config = x.config
  configEff : t.configEff = x.config
  vpEff     : t.vpEff = pswVP (p &&& pswMask)
  vb        : t.vb = x.vb
  stb       : t.stb = x.stb
  fault     : t.fault = x.fault
  timer1    : t.timer1 = x.timer1
  timer2    : t.timer2 = x.timer2
  events    : SameEvents x t

theorem leaveKernel_left (pc p : Word) (x : State) : ∃ t, leaveKernel pc p x = .ok () t ∧ LeftKernel x pc p t :=
  ⟨_, leaveKernel_eq pc p x _ rfl, ⟨rfl, rfl, rfl, rfl, rfl, rfl, rfl, rfl, rfl, rfl, rfl, rfl, rfl, rfl, rfl, rfl, rfl,
    ⟨rfl, rfl, rfl, rfl, rfl, rfl⟩⟩⟩

/-- Settles O29: the frame is outside both windows, so its words are memory's. -/
theorem cretResult : Obligations.CretResult := by
  intro s sp msp p hp hus hx ha hframe hsp hmsp hpsw hvp hlow hhigh hmiss
  obtain ⟨hv, hb, -⟩ := (plain_iff s).1 hp
  have hq : sp.toNat % 16 = 0 := by
    rw [hsp, quadAlign_toNat]
    omega
  have hqm : msp.toNat % 16 = 0 := by
    rw [hmsp, quadAlign_toNat]
    omega
  have hvp' : pswVP (load 4 (s.isp + 12#32) s) = false := by
    rw [← pswVP_mask, ← hpsw, hvp]
  obtain ⟨w, hfill, hk, hturns, hrecent, hmem, hcells⟩ := cretFill_physical hv hb hvp' hq hqm hlow hhigh
  obtain ⟨hplain, husable⟩ := cret_window (sp := sp) (msp := msp) hk hp hturns hrecent hlow hhigh
  obtain ⟨ha8, hh8⟩ := hframe 2
  have hmiss' := (hits_visible (sp := sp) (msp := msp) hk (s.isp + 8#32)).trans hmiss
  have hpc := sequenceRead_plain (s.isp + 8#32) _ hplain husable hmiss' ha8
  have hload : load 4 (s.isp + 8#32) ((w.setSp sp).setMsp msp) = load 4 (s.isp + 8#32) s := by
    have hh8 : hits (s.isp + 8#32) s = false := hh8
    rw [load_word, load_word, hmiss', hh8]
    show Memory.readBE w.mem _ 4 = Memory.readBE s.mem _ 4
    rw [hmem]
  rw [hload] at hpc
  have hk' := hk
  simp only [State.visible, Visible.mk.injEq] at hk'
  obtain ⟨h1, -, -, h4, -, -, -, h8, h9, h10, h11, h12, -, h14, h15, h16, h17, h18, h19⟩ := hk'
  have hrun := runCret_filled hp hus hx hframe hsp hmsp hfill hpc h4
  obtain ⟨t, e, ht⟩ := leaveKernel_left (load 4 (s.isp + 8#32) s) (load 4 (s.isp + 12#32) s)
    ((w.setSp sp).setMsp msp)
  have hev := ht.events
  refine ⟨t, exec_of_run_ok (show parse .cret = some (false, .niladic .cret) from rfl) (hrun.trans e), ht.ended, ht.sp,
    ht.msp, ht.psw.trans hpsw.symm, ht.pc, ht.isp.trans (congrArg (· + 16#32) h4), ht.shad, ht.mem.trans hmem,
    ht.config.trans h1, ht.configEff.trans h1, ht.vpEff.trans (hpsw ▸ hvp), ht.vb.trans h8, ht.stb.trans h9,
    ht.fault.trans h10, ht.timer1.trans h11, ht.timer2.trans h12,
    ⟨hev.t1Pending.trans h14, hev.t2Pending.trans h15, hev.nmiArmed.trans h16, hev.tracePending.trans h17,
      hev.busMap.trans h18, hev.pins.trans h19⟩, fun hcsp a haa hlo hhi => ?_⟩
  rw [hpsw, pswCSP_mask] at hcsp
  rw [if_pos hcsp] at hcells
  refine Eq.trans ?_ (hcells a haa (BitVec.le_def.1 hlo) (BitVec.lt_def.1 hhi))
  rw [readCell, readCell, ht.cache]
  rfl

end Sys2Proof.Machine
end
